-- ==== Sys2Proof/Word.lean ====
section
/-! DEFINITION. The three word types of the ports and registers (spec/00_scope.md R6, R9, R10;
spec/30_encoding.md R60, R61). All are unsigned; `+` on `Word` is the spec's `+32` (R11). -/

namespace Sys2Proof

/-- The spec's `u32`: every operand, every result and both registers (R6, R10). -/
abbrev Word := BitVec 32

/-- One command word, presented whole to the command port (R60). -/
abbrev CommandWord := BitVec 72

/-- One response word, returned whole by the response port (R61). -/
abbrev ResponseWord := BitVec 40

end Sys2Proof
end

