-- ==== Sys2Proof/Syntax.lean ====
section
/-! DEFINITION. The ten commands of spec/30_encoding.md R62 (spec/opcode_table.json), each with the
operand fields it uses and no others: a field a command does not use is ignored (R64). -/

namespace Sys2Proof

/-- One constructor per row of the opcode table, in the table's order. -/
inductive Instr where
  /-- 0x01 PERMUTE, A = x (R98). -/
  | permute (x : Word)
  /-- 0x02 CONSTRUCT, A = seed_base, B = seed_offset (R111). -/
  | construct (seedBase seedOffset : Word)
  /-- 0x03 CURRENT, no operand (R122). -/
  | current
  /-- 0x04 NEXT, no operand (R123). -/
  | next
  /-- 0x05 RESEED, A = seed_base, B = seed_offset (R112). -/
  | reseed (seedBase seedOffset : Word)
  /-- 0x06 SCRAMBLE, A = x (R124). -/
  | scramble (x : Word)
  /-- 0x07 RDINDEX, no operand (R140). -/
  | rdindex
  /-- 0x08 RDOFFSET, no operand (R141). -/
  | rdoffset
  /-- 0x09 RDSTATUS, no operand (R142). -/
  | rdstatus
  /-- 0x0A RESTORE, A = the new INDEX, B = the new OFFSET (R143). -/
  | restore (newIndex newOffset : Word)
  deriving DecidableEq, Repr

end Sys2Proof
end

