-- ==== Sys2Proof/Decode.lean ====
section
/-! DEFINITION. Decoding and encoding of the 72-bit command word `OP, A, B` (spec/30_encoding.md R60
to R66). Decoding is total: a word is one of the ten commands, or it is rejected by the name of its
reserved OP. -/

namespace Sys2Proof

/-- Field OP, bits 71:64 (R60). -/
def commandOp (w : CommandWord) : BitVec 8 := w.extractLsb' 64 8

/-- Field A, bits 63:32 (R60). -/
def commandA (w : CommandWord) : Word := w.extractLsb' 32 32

/-- Field B, bits 31:0 (R60). -/
def commandB (w : CommandWord) : Word := w.extractLsb' 0 32

/-- The concatenation of the three fields, OP most significant (R60, R9). -/
def packCommand (op : BitVec 8) (a b : Word) : CommandWord := op ++ a ++ b

/-- Why a command word is no command. -/
inductive DecodeError where
  /-- OP is 0x00 or one of 0x0B to 0xFF (R66): the core answers IllegalCommand (R152). -/
  | reservedOp (op : BitVec 8)
  deriving DecidableEq, Repr

/-- The opcode map of R62, on all 8 bits of OP (R65); unused fields are ignored (R64). -/
def decode (w : CommandWord) : Except DecodeError Instr :=
  match (commandOp w).toNat with
  | 0x01 => .ok (.permute (commandA w))
  | 0x02 => .ok (.construct (commandA w) (commandB w))
  | 0x03 => .ok .current
  | 0x04 => .ok .next
  | 0x05 => .ok (.reseed (commandA w) (commandB w))
  | 0x06 => .ok (.scramble (commandA w))
  | 0x07 => .ok .rdindex
  | 0x08 => .ok .rdoffset
  | 0x09 => .ok .rdstatus
  | 0x0A => .ok (.restore (commandA w) (commandB w))
  | _    => .error (.reservedOp (commandOp w))

/-- The word the assembler writes for a command: unused fields are zero (R64, R69). -/
def encode (i : Instr) : CommandWord :=
  match i with
  | .permute x     => packCommand 0x01#8 x 0#32
  | .construct a b => packCommand 0x02#8 a b
  | .current       => packCommand 0x03#8 0#32 0#32
  | .next          => packCommand 0x04#8 0#32 0#32
  | .reseed a b    => packCommand 0x05#8 a b
  | .scramble x    => packCommand 0x06#8 x 0#32
  | .rdindex       => packCommand 0x07#8 0#32 0#32
  | .rdoffset      => packCommand 0x08#8 0#32 0#32
  | .rdstatus      => packCommand 0x09#8 0#32 0#32
  | .restore a b   => packCommand 0x0A#8 a b

/-- The command word with the low `nbits` bits of `w`, bit 0 least significant, the rest zero. The
word is presented whole (spec/20_memory.md R42), so it has no byte order to lay out
(notes/assumptions/11). -/
def commandWordOfBits (nbits w : Nat) : CommandWord := BitVec.ofNat 72 (w % 2 ^ nbits)

/-- What the decoder reads from a command whose bits are `w`, as spec/opcode_table.json numbers
them; `none` where OP is reserved. -/
def decodeTableWord (nbits w : Nat) : Option Instr :=
  match decode (commandWordOfBits nbits w) with
  | .ok i    => some i
  | .error _ => none

end Sys2Proof
end

