-- ==== Sys2Proof/Config.lean ====
section
/-! DEFINITION. What an instance of the core is built with (spec/00_scope.md R7, R8; spec/10_state.md
R27): the two fixed constants, and the parameter triple, which the spec leaves open. -/

namespace Sys2Proof

/-- PRIME, "the largest prime below 2^32" (R7). -/
def Config.prime : Nat := 4294967291

/-- PRIME_HALF, `PRIME / 2` by integer division (R7). -/
def Config.primeHalf : Nat := 2147483645

/-- The parameter triple `(SHIFT_INDEX, SHIFT_OFFSET, XOR_CONST)` of R8, "fixed when an instance is
built and never changed afterwards". -/
structure Params where
  shiftIndex  : Word
  shiftOffset : Word
  xorConst    : Word
  deriving DecidableEq, Repr

/-- SHIFT_INDEX of the instance that `State.reset` describes: a free value (R8, U1; notes/assumptions/2). -/
opaque Config.shiftIndex : Word

/-- SHIFT_OFFSET of that instance: a free value (R8, U1; notes/assumptions/2). -/
opaque Config.shiftOffset : Word

/-- XOR_CONST of that instance: a free value (R8, U1; notes/assumptions/2). -/
opaque Config.xorConst : Word

/-- The triple of the instance that `State.reset` describes. -/
def Config.params : Params :=
  { shiftIndex := Config.shiftIndex, shiftOffset := Config.shiftOffset, xorConst := Config.xorConst }

/-- CFG-A of spec/92_eei_decisions.md D14: a named triple of the test vectors, not the hardware's. -/
def Config.cfgA : Params :=
  { shiftIndex := 0x00000001#32, shiftOffset := 0x00000002#32, xorConst := 0x00000003#32 }

/-- CFG-B of D14 (its values are general knowledge, spec/93_implementation_defined.md G1). -/
def Config.cfgB : Params :=
  { shiftIndex := 0x682F0161#32, shiftOffset := 0x46790905#32, xorConst := 0x5BF03635#32 }

end Sys2Proof
end

