-- ==== Sys2Proof/Machine/Arith.lean ====
section
/-! DEFINITION. The three functions every command is made of: `permute` (spec/40_permute.md R91),
`derive` (spec/41_seed.md R110) and `F` (spec/42_generate.md R120), and the folded remainder of the
implementation note R99. -/

namespace Sys2Proof.Machine

/-- The exact square modulo PRIME (R91, R93). The product is a natural number, so it is never
truncated (notes/assumptions/14). -/
def squareRemainder (x : Word) : Nat := x.toNat * x.toNat % Config.prime

/-- The Permutation Engine (R90, R91, R92, R94). -/
def permute (x : Word) : Word :=
  if Config.prime ≤ x.toNat then x
  else if x.toNat ≤ Config.primeHalf then BitVec.ofNat 32 (squareRemainder x)
  else BitVec.ofNat 32 (Config.prime - squareRemainder x)

/-- One fold of R99: `hi * 2^32 + lo` becomes `5 * hi + lo`, congruent modulo PRIME. -/
def foldOnce (v : Nat) : Nat := 5 * (v / 2 ^ 32) + v % 2 ^ 32

/-- The remainder by two folds and one subtraction, as a circuit without a divider computes it
(R99, "not normative"): no meaning calls it. -/
def foldedRemainder (x : Word) : Nat :=
  let w := foldOnce (foldOnce (x.toNat * x.toNat))
  if w < Config.prime then w else w - Config.prime

/-- `derive(seed, shift)` with its stages u1, u2, u3 (R110). -/
def derive (seed shift : Word) : Word :=
  let u1 := permute seed
  let u2 := u1 + shift
  permute u2

/-- `F(src, off)` with its stages t1 to t4 (R120); XOR_CONST is an argument. -/
def compose (xorConst src off : Word) : Word :=
  let t1 := permute src
  let t2 := t1 + off
  let t3 := t2 ^^^ xorConst
  permute t3

end Sys2Proof.Machine
end

