-- ==== Sys2Proof/Machine/State.lean ====
section
/-! DEFINITION. The state of the machine as plain data: the core's own state (spec/10_state.md), the
words in transit at its three ports (spec/70_reset_and_hazards.md R180, R186), the instance's
parameter triple (spec/00_scope.md R8), and the schedule of moves, which is the model's own
(notes/assumptions/5). The core has no memory (spec/20_memory.md R40), so none stands here. -/

namespace Sys2Proof.Machine

/-- The Sequence Generator's state: "exactly one of: `Unseeded`, or `Seeded(index : u32, offset :
u32)`" (R28). The constructor is the flag SEEDED (R22); with SEEDED = 0 the registers INDEX (R20)
and OFFSET (R21) have no value (R31, U4; notes/assumptions/1). -/
inductive Generator where
  | unseeded
  | seeded (index offset : Word)
  deriving DecidableEq, Repr

/-- The status field ST of a response: "exactly three values" (R67). -/
inductive Status where
  | ok
  | illegalCommand
  | notSeeded
  deriving DecidableEq, Repr

/-- One response: status and result (R61). -/
structure Response where
  st : Status
  r  : Word
  deriving DecidableEq, Repr

/-- The hardware's "exactly two synchronous exceptions" (R151). -/
inductive Exception where
  /-- Raised by a command word whose OP is reserved (R152). -/
  | illegalCommand
  /-- Raised by CURRENT, NEXT, SCRAMBLE, RDINDEX and RDOFFSET while SEEDED = 0 (R153). -/
  | notSeeded
  deriving DecidableEq, Repr

/-- "The host can do exactly three things to the core" (R12). -/
inductive HostMove where
  /-- A command word is transferred at the command port: offered and accepted (R186). -/
  | present (w : CommandWord)
  /-- The host takes the oldest response from the response port (R186). -/
  | take
  /-- The host drives the reset line: asserted or released (R180). -/
  | reset (asserted : Bool)
  deriving DecidableEq, Repr

/-- Who moves in one step: the core, or the host with one move of its own (R12). -/
inductive Turn where
  | core
  | host (m : HostMove)
  deriving DecidableEq, Repr

/-- The whole machine. -/
structure State where
  /-- The hardwired triple of this instance; nothing writes it (R8, R27; notes/assumptions/2). -/
  params    : Params
  /-- INDEX, OFFSET and SEEDED (R20, R21, R22, R28). -/
  gen       : Generator
  /-- Command words accepted and not yet answered, oldest first (R46, R180). -/
  accepted  : List CommandWord
  /-- Responses produced and not yet taken, oldest first (R46, R180, R186). -/
  responses : List Response
  /-- The reset input: asserted or not (R180, R186). -/
  resetLine : Bool
  /-- The schedule of the coming moves, first first; when it is empty the core moves. The model's
  own, not the spec's (notes/assumptions/5). -/
  turns     : List Turn
  deriving DecidableEq, Repr

/-- The core never stops: "the core never halts" (R13), "never hangs" (R187), and its two
exceptions are error responses, after which it goes on (R155, R156). So there is no fault. -/
inductive Fault where
  deriving DecidableEq, Repr

/-- Why an instruction has no meaning. -/
inductive Refusal where
  /-- An arm of `exec` not written yet. No arm raises it: every command has its meaning. Safe. -/
  | notModelled (mnemonic : String)
  deriving DecidableEq, Repr

/-- The machine right after reset (R31, R180): unseeded, both ports empty, the reset line released,
the hardwired triple whatever it is, and no move scheduled. -/
def State.reset : State :=
  { params := Config.params, gen := .unseeded, accepted := [], responses := [],
    resetLine := false, turns := [] }

end Sys2Proof.Machine
end

