-- ==== Sys2Proof/Machine/Ops.lean ====
section
/-! DEFINITION. The named operations every command is written with: producing a response, writing the
registers, raising an exception (spec/00_scope.md R11, spec/60_exceptions.md R151 to R155), and the
operations of the three ports (spec/70_reset_and_hazards.md R180, R182, R186). -/

namespace Sys2Proof.Machine

/-- The 8-bit code of a status (R67). -/
def statusCode (st : Status) : BitVec 8 :=
  match st with
  | .ok             => 0x00#8
  | .illegalCommand => 0x01#8
  | .notSeeded      => 0x02#8

/-- The 40-bit response word, ST above R (R61). -/
def responseWord (x : Response) : ResponseWord := statusCode x.st ++ x.r

/-- `respond(st, r)`: the command ends and its response joins the response port (R11, R46). -/
def respond (st : Status) (r : Word) (s : State) : State :=
  { s with responses := s.responses ++ [{ st := st, r := r }] }

/-- `INDEX <- index`, `OFFSET <- offset`, `SEEDED <- 1`, together (R44). -/
def writeRegisters (index offset : Word) (s : State) : State :=
  { s with gen := .seeded index offset }

/-- The status an exception answers with (R151). -/
def exceptionStatus (e : Exception) : Status :=
  match e with
  | .illegalCommand => .illegalCommand
  | .notSeeded      => .notSeeded

/-- Taking an exception: the error response with R = 0 is the whole of it; nothing is saved and no
other state changes (R68, R152, R153, R155). There is no return from one (R156). -/
def raise (e : Exception) (s : State) : State :=
  respond (exceptionStatus e) 0#32 s

/-- Both registers derived from a seed pair, and SEEDED set (R110, R111, R112). -/
def seedFrom (seedBase seedOffset : Word) (s : State) : State :=
  writeRegisters (derive seedBase s.params.shiftIndex) (derive seedOffset s.params.shiftOffset) s

/-- The command port accepts a word; while reset is asserted the core "stays in" the reset state, so
nothing is accepted (R180, R186; notes/assumptions/6). -/
def acceptCommand (w : CommandWord) (s : State) : State :=
  if s.resetLine then s else { s with accepted := s.accepted ++ [w] }

/-- The host takes the oldest response; at an empty port nothing is transferred (R186;
notes/assumptions/7). -/
def takeResponse (s : State) : State :=
  { s with responses := s.responses.tail }

/-- Reset is asserted: unseeded, commands in flight dropped, response port empty, the hardwired
constants unchanged (R180, R182). -/
def assertReset (s : State) : State :=
  { s with gen := .unseeded, accepted := [], responses := [], resetLine := true }

/-- Reset is released: the core leaves the reset state as it stands (R180, R182). -/
def releaseReset (s : State) : State :=
  { s with resetLine := false }

/-- One move of the host (R12). -/
def hostMove (m : HostMove) (s : State) : State :=
  match m with
  | .present w   => acceptCommand w s
  | .take        => takeResponse s
  | .reset true  => assertReset s
  | .reset false => releaseReset s

end Sys2Proof.Machine
end

