-- ==== Sys2Proof/Machine/Operands.lean ====
section
/-! DEFINITION. The operand forms. A command's own operands are whole words of the command word,
neither extended nor scaled (spec/30_encoding.md R63), so they arrive as they stand; "every command
names its state operands (INDEX, OFFSET) implicitly" (R63), and those are read here. -/

namespace Sys2Proof.Machine

/-- The implicit operands INDEX and OFFSET of a command that needs SEEDED = 1: with SEEDED = 0 it
raises NotSeeded before anything is computed (R153, R154). -/
def withRegisters (s : State) (effect : Word → Word → State) : State :=
  match s.gen with
  | .unseeded            => raise .notSeeded s
  | .seeded index offset => effect index offset

end Sys2Proof.Machine
end

