-- ==== Sys2Proof/Machine/Generate.lean ====
section
/-! DEFINITION. The generating commands, CURRENT, NEXT and SCRAMBLE (spec/42_generate.md R122, R123,
R124). -/

namespace Sys2Proof.Machine

/-- CURRENT answers `F(INDEX, OFFSET)` and writes nothing (R122). -/
def execCurrent (s : State) : Host.Outcome State Fault Refusal :=
  .next (withRegisters s fun index offset =>
    respond .ok (compose s.params.xorConst index offset) s)

/-- NEXT advances INDEX first, wrapping, and answers `F` of the new INDEX (R123). -/
def execNext (s : State) : Host.Outcome State Fault Refusal :=
  .next (withRegisters s fun index offset =>
    respond .ok (compose s.params.xorConst (index + 1#32) offset)
      (writeRegisters (index + 1#32) offset s))

/-- SCRAMBLE answers `F(A, OFFSET)`, neither reading nor writing INDEX (R124). -/
def execScramble (x : Word) (s : State) : Host.Outcome State Fault Refusal :=
  .next (withRegisters s fun _ offset =>
    respond .ok (compose s.params.xorConst x offset) s)

end Sys2Proof.Machine
end

