-- ==== Sys2Proof/Machine/PermuteCommand.lean ====
section
/-! DEFINITION. The Permutation Engine's command, PERMUTE (spec/40_permute.md R98). -/

namespace Sys2Proof.Machine

/-- PERMUTE answers `permute(A)`, seeded or not (R98). -/
def execPermute (x : Word) (s : State) : Host.Outcome State Fault Refusal :=
  .next (respond .ok (permute x) s)

end Sys2Proof.Machine
end

