-- ==== Sys2Proof/Machine/Seeding.lean ====
section
/-! DEFINITION. The seeding commands, CONSTRUCT and RESEED (spec/41_seed.md R111, R112). -/

namespace Sys2Proof.Machine

/-- CONSTRUCT derives both registers from the seed pair, in any state (R111). -/
def execConstruct (seedBase seedOffset : Word) (s : State) : Host.Outcome State Fault Refusal :=
  .next (respond .ok 0#32 (seedFrom seedBase seedOffset s))

/-- RESEED has the effect and the response of CONSTRUCT with the same operands (R112); INDEX is not
set to 0 (spec/90_conflicts.md C3). -/
def execReseed (seedBase seedOffset : Word) (s : State) : Host.Outcome State Fault Refusal :=
  .next (respond .ok 0#32 (seedFrom seedBase seedOffset s))

end Sys2Proof.Machine
end

