-- ==== Sys2Proof/Machine/Flags.lean ====
section
/-! DEFINITION. The one flag, SEEDED, and the one status register, STATUS, which is computed from it
(spec/10_state.md R22, R25, R26). No command computes any other flag (R25). -/

namespace Sys2Proof.Machine

/-- SEEDED (R22), which is the constructor of the generator's state (R28). -/
def seededFlag (g : Generator) : Bool :=
  match g with
  | .unseeded   => false
  | .seeded _ _ => true

/-- STATUS: bit 0 is SEEDED, bits 31 to 1 read as 0 (R26, R142 `zext_32(SEEDED)`). -/
def statusRegister (g : Generator) : Word :=
  (BitVec.ofBool (seededFlag g)).setWidth 32

end Sys2Proof.Machine
end

