-- ==== Sys2Proof/Machine/StateAccess.lean ====
section
/-! DEFINITION. The state-access commands, RDINDEX, RDOFFSET, RDSTATUS and RESTORE
(spec/43_state_access.md R140 to R143). -/

namespace Sys2Proof.Machine

/-- RDINDEX answers the raw counter INDEX (R140). -/
def execRdindex (s : State) : Host.Outcome State Fault Refusal :=
  .next (withRegisters s fun index _ => respond .ok index s)

/-- RDOFFSET answers OFFSET (R141). -/
def execRdoffset (s : State) : Host.Outcome State Fault Refusal :=
  .next (withRegisters s fun _ offset => respond .ok offset s)

/-- RDSTATUS answers STATUS, in every state (R142). -/
def execRdstatus (s : State) : Host.Outcome State Fault Refusal :=
  .next (respond .ok (statusRegister s.gen) s)

/-- RESTORE writes both registers from its operands, underived, in any state (R143). -/
def execRestore (newIndex newOffset : Word) (s : State) : Host.Outcome State Fault Refusal :=
  .next (respond .ok 0#32 (writeRegisters newIndex newOffset s))

end Sys2Proof.Machine
end

