-- ==== Sys2Proof/Machine/Dispatch.lean ====
section
/-! DEFINITION. One arm per command: what executing it does to the machine. -/

namespace Sys2Proof.Machine

def exec (i : Instr) (s : State) : Host.Outcome State Fault Refusal :=
  match i with
  | .permute x => Sys2Proof.Machine.execPermute x s
  | .construct seedBase seedOffset => Sys2Proof.Machine.execConstruct seedBase seedOffset s
  | .current => Sys2Proof.Machine.execCurrent s
  | .next => Sys2Proof.Machine.execNext s
  | .reseed seedBase seedOffset => Sys2Proof.Machine.execReseed seedBase seedOffset s
  | .scramble x => Sys2Proof.Machine.execScramble x s
  | .rdindex => Sys2Proof.Machine.execRdindex s
  | .rdoffset => Sys2Proof.Machine.execRdoffset s
  | .rdstatus => Sys2Proof.Machine.execRdstatus s
  | .restore newIndex newOffset => Sys2Proof.Machine.execRestore newIndex newOffset s

end Sys2Proof.Machine
end

