-- ==== Sys2Proof/Machine/Moves.lean ====
section
/-! DEFINITION. One move of the machine: the core executes the oldest accepted command word
(spec/20_memory.md R46), or the host makes a move of its own (spec/00_scope.md R12). -/

namespace Sys2Proof.Machine

/-- What the core does with one command word: decoding comes first (R154), and a reserved OP is
answered with IllegalCommand (R152). -/
def executeWord (w : CommandWord) (s : State) : Host.Outcome State Fault Refusal :=
  match decode w with
  | .ok i    => exec i s
  | .error _ => .next (raise .illegalCommand s)

/-- The core's move: held in the reset state while reset is asserted (R180); idle with no command
accepted (notes/assumptions/10); otherwise the oldest accepted word leaves the port and executes (R46). -/
def coreMove (s : State) : Host.Outcome State Fault Refusal :=
  if s.resetLine then .next s
  else
    match s.accepted with
    | []        => .next s
    | w :: rest => executeWord w { s with accepted := rest }

/-- The move the schedule gives next; with nothing scheduled the core moves. -/
def nextMove (s : State) : Host.Outcome State Fault Refusal :=
  match s.turns with
  | []              => coreMove s
  | .core :: rest   => coreMove { s with turns := rest }
  | .host m :: rest => .next (hostMove m { s with turns := rest })

end Sys2Proof.Machine
end

