-- ==== Sys2Proof/Machine/Step.lean ====
section
/-! DEFINITION. One step of the machine, and where the host's checks place a command so that the very
next step runs it. -/

namespace Sys2Proof.Machine

/-- One step: one move of the core or of the host (spec/00_scope.md R12, R13). -/
def step (s : State) : Host.Outcome State Fault Refusal := nextMove s

/-- `s` with a command word at the head of the command port, the core to move next and reset
released: the very next step runs it. It stands for the host's presenting the word (R12, R62;
notes/assumptions/10). -/
def State.withFetchWord (s : State) (nbits w : Nat) : State :=
  { s with
    accepted := commandWordOfBits nbits w :: s.accepted
    resetLine := false
    turns := .core :: s.turns }

end Sys2Proof.Machine
end

