-- ==== Sys2Proof/Machine/Assembler.lean ====
section
/-! DEFINITION. The textual command syntax of spec/30_encoding.md R69: one command a line, in
characters, assembled to a command word, and a script of lines as the host's presenting of them. The
core knows nothing of it; no meaning calls it. -/

namespace Sys2Proof.Machine

/-- One written command: a mnemonic and its operands in the order A then B (R69). -/
structure CommandLine where
  mnemonic : List Char
  operands : List Nat
  deriving DecidableEq, Repr

/-- The mnemonics of R62, each with its OP and how many operands it is written with. -/
def mnemonicTable : List (List Char × BitVec 8 × Nat) :=
  [("PERMUTE".toList, 0x01#8, 1), ("CONSTRUCT".toList, 0x02#8, 2), ("CURRENT".toList, 0x03#8, 0),
   ("NEXT".toList, 0x04#8, 0), ("RESEED".toList, 0x05#8, 2), ("SCRAMBLE".toList, 0x06#8, 1),
   ("RDINDEX".toList, 0x07#8, 0), ("RDOFFSET".toList, 0x08#8, 0), ("RDSTATUS".toList, 0x09#8, 0),
   ("RESTORE".toList, 0x0A#8, 2)]

/-- A line is well formed: a mnemonic of the table, as many operands as it takes, each "in the range
0 to 4294967295" (R69). -/
def CommandLine.wellFormed (l : CommandLine) : Bool :=
  match mnemonicTable.lookup l.mnemonic with
  | none            => false
  | some (_, count) => l.operands.length == count && l.operands.all fun n => n < 2 ^ 32

/-- The command word of a well-formed line; "unused fields are encoded as zero" (R69). -/
def assembleLine (l : CommandLine) : Option CommandWord :=
  if l.wellFormed then
    match mnemonicTable.lookup l.mnemonic with
    | none         => none
    | some (op, _) =>
      some (packCommand op (BitVec.ofNat 32 (l.operands.getD 0 0))
        (BitVec.ofNat 32 (l.operands.getD 1 0)))
  else none

/-- The command's part of a line: a comment runs "from `#` to the end", and an expected response
"may follow the command after `->`" (R69; notes/assumptions/9). -/
def commandPart : List Char → List Char
  | []              => []
  | '#' :: _        => []
  | '-' :: '>' :: _ => []
  | c :: cs         => c :: commandPart cs

/-- A space or a tab. -/
def isBlank (c : Char) : Bool := c == ' ' || c == '\t'

/-- Without the blanks at both ends. -/
def trimBlanks (cs : List Char) : List Char :=
  ((cs.dropWhile isBlank).reverse.dropWhile isBlank).reverse

/-- The pieces between commas. -/
def splitCommas : List Char → List (List Char)
  | []        => [[]]
  | ',' :: cs => [] :: splitCommas cs
  | c :: cs   =>
    match splitCommas cs with
    | []            => [[c]]
    | piece :: more => (c :: piece) :: more

/-- The value of a digit in base 10 or 16; hexadecimal letters in either case
(notes/assumptions/9). -/
def digitValue (base : Nat) (c : Char) : Option Nat :=
  let n := c.toNat
  let v :=
    if 48 ≤ n ∧ n ≤ 57 then n - 48
    else if 65 ≤ n ∧ n ≤ 70 then n - 55
    else if 97 ≤ n ∧ n ≤ 102 then n - 87
    else base
  if v < base then some v else none

/-- The value of a run of digits after those already read. -/
def digitsFrom (base acc : Nat) : List Char → Option Nat
  | []      => some acc
  | c :: cs =>
    match digitValue base c with
    | some d => digitsFrom base (acc * base + d) cs
    | none   => none

/-- "A decimal numeral or a `0x` hexadecimal numeral" (R69). -/
def numeral : List Char → Option Nat
  | []                   => none
  | '0' :: 'x' :: d :: ds => digitsFrom 16 0 (d :: ds)
  | d :: ds              => digitsFrom 10 0 (d :: ds)

/-- Every piece read as a numeral. -/
def numerals : List (List Char) → Option (List Nat)
  | []            => some []
  | piece :: more =>
    match numeral (trimBlanks piece), numerals more with
    | some n, some ns => some (n :: ns)
    | _, _            => none

/-- A line with a command in it, read; `none` where an operand is no numeral. -/
def readLine (text : List Char) : Option CommandLine :=
  let name := text.takeWhile fun c => !isBlank c
  let rest := trimBlanks (text.dropWhile fun c => !isBlank c)
  if rest.isEmpty then some { mnemonic := name, operands := [] }
  else
    match numerals (splitCommas rest) with
    | some ns => some { mnemonic := name, operands := ns }
    | none    => none

/-- A script, a list of lines, assembled in line order; a line with no command gives no word, and
one bad line spoils the script (R69). -/
def assembleScript : List (List Char) → Option (List CommandWord)
  | []            => some []
  | line :: lines =>
    let text := trimBlanks (commandPart line)
    if text.isEmpty then assembleScript lines
    else
      match (readLine text).bind assembleLine, assembleScript lines with
      | some w, some ws => some (w :: ws)
      | _, _            => none

/-- "The host presents the commands in line order" (R69). -/
def scriptTurns (ws : List CommandWord) : List Turn :=
  ws.map fun w => .host (.present w)

end Sys2Proof.Machine
end

