-- ==== Sys2Proof/Safety.lean ====
section
/-! DEFINITION. What counts as a sound state, a run of commands and a safe host, in the terms the
obligations use. -/

namespace Sys2Proof.Machine

/-- A response as the core may produce it: an error response carries R = 0 (spec/30_encoding.md R68). -/
def Response.sound (x : Response) : Prop := x.st = .ok ∨ x.r = 0#32

/-- The invariant of the machine: while reset is asserted the core is in the reset state
(spec/70_reset_and_hazards.md R180), and every response waiting at the port is one the core may
produce (R67, R68). -/
def State.Inv (s : State) : Prop :=
  (s.resetLine = true → s.gen = .unseeded ∧ s.accepted = [] ∧ s.responses = [])
    ∧ ∀ x ∈ s.responses, x.sound

/-- `s` with the words `cs` accepted at the command port and nothing else under way: the response
port empty, reset released, the core to move (spec/00_scope.md R13; without takes between the
words, notes/assumptions/4 and 5). -/
def State.offered (s : State) (cs : List CommandWord) : State :=
  { s with accepted := cs, responses := [], resetLine := false, turns := [] }

/-- `n` steps, stopping where a step stops; the same as the host's `core.run`, in the machine's own
types. -/
def runSteps : Nat → State → Host.Outcome State Fault Refusal
  | 0, s     => .next s
  | n + 1, s =>
    match step s with
    | .next t    => runSteps n t
    | .fault e   => .fault e
    | .refused e => .refused e

/-- The run of R13 from `s` on the words `cs`: the state after them, if no step stopped. -/
def serve (s : State) (cs : List CommandWord) : Option State :=
  match runSteps cs.length (s.offered cs) with
  | .next t    => some t
  | .fault _   => none
  | .refused _ => none

/-- The responses r1, r2, ... of that run (R13). -/
def answers (s : State) (cs : List CommandWord) : Option (List Response) :=
  (serve s cs).map State.responses

/-- The commands that set SEEDED (R22, R30). -/
def seeds (i : Instr) : Bool :=
  match i with
  | .construct _ _ => true
  | .reseed _ _    => true
  | .restore _ _   => true
  | .permute _     => false
  | .current       => false
  | .next          => false
  | .scramble _    => false
  | .rdindex       => false
  | .rdoffset      => false
  | .rdstatus      => false

/-- The commands that need SEEDED = 1 (R151, R153). -/
def needsSeeded (i : Instr) : Bool :=
  match i with
  | .current       => true
  | .next          => true
  | .scramble _    => true
  | .rdindex       => true
  | .rdoffset      => true
  | .permute _     => false
  | .construct _ _ => false
  | .reseed _ _    => false
  | .rdstatus      => false
  | .restore _ _   => false

/-- The commands that write no state (spec/20_memory.md R45): all but the seeding ones and NEXT. -/
def pureRead (i : Instr) : Bool :=
  match i with
  | .permute _     => true
  | .current       => true
  | .scramble _    => true
  | .rdindex       => true
  | .rdoffset      => true
  | .rdstatus      => true
  | .construct _ _ => false
  | .next          => false
  | .reseed _ _    => false
  | .restore _ _   => false

/-- A safe host: it seeds the core before any command that needs SEEDED (R183); `seededNow` says
whether the core is already seeded. -/
def bootOrder : Bool → List Instr → Bool
  | _, []              => true
  | seededNow, i :: is => (seededNow || !needsSeeded i) && bootOrder (seededNow || seeds i) is

end Sys2Proof.Machine
end

