-- ==== Sys2Proof/Certificates/Slice0/Obligations.lean ====
section
/-! DEFINITION. The statements for the provers. Each cites the rule of spec/ it formalises. A next
state written `{ s with … }` is at once the completion, the result and the frame: every field not
named is as it was. -/

open Sys2Proof Sys2Proof.Machine

/-! ## Words, decoding and encoding (spec/30_encoding.md) -/

/-- R60: the command word is `OP * 2^64 + A * 2^32 + B`, and every word is its three fields. -/
def Obligations.CommandWordIsItsThreeFields : Prop :=
  (∀ (op : BitVec 8) (a b : Word),
    (packCommand op a b).toNat = op.toNat * 2 ^ 64 + a.toNat * 2 ^ 32 + b.toNat)
  ∧ ∀ w : CommandWord,
    (commandOp w).toNat = w.toNat / 2 ^ 64 ∧ (commandA w).toNat = w.toNat / 2 ^ 32 % 2 ^ 32
      ∧ (commandB w).toNat = w.toNat % 2 ^ 32 ∧ packCommand (commandOp w) (commandA w) (commandB w) = w

/-- R61 (the layout), R67 (the codes): the response word is `ST * 2^32 + R`. -/
def Obligations.ResponseWordIsStatusAboveResult : Prop :=
  ∀ r : Word,
    (responseWord { st := .ok, r := r }).toNat = r.toNat
      ∧ (responseWord { st := .illegalCommand, r := r }).toNat = 1 * 2 ^ 32 + r.toNat
      ∧ (responseWord { st := .notSeeded, r := r }).toNat = 2 * 2 ^ 32 + r.toNat

/-- Section 8 of 30_encoding.md, section 3.6 of 95_test_vectors.md: one written-out word per command,
NEXT with junk in its unused fields, and the two edges of the reserved space. -/
def Obligations.WrittenOutWordsDecode : Prop :=
  decode 0x01DEADBEEF00000000#72 = .ok (.permute 0xDEADBEEF#32)
    ∧ decode 0x020000002A0000007F#72 = .ok (.construct 42#32 127#32)
    ∧ decode 0x030000000000000000#72 = .ok .current
    ∧ decode 0x040000000000000000#72 = .ok .next
    ∧ decode 0x05FFFFFFFF00000001#72 = .ok (.reseed 0xFFFFFFFF#32 1#32)
    ∧ decode 0x060000000300000000#72 = .ok (.scramble 3#32)
    ∧ decode 0x070000000000000000#72 = .ok .rdindex
    ∧ decode 0x080000000000000000#72 = .ok .rdoffset
    ∧ decode 0x090000000000000000#72 = .ok .rdstatus
    ∧ decode 0x0A0000000600000079#72 = .ok (.restore 6#32 121#32)
    ∧ decode 0x04DEADBEEF12345678#72 = .ok .next
    ∧ decode 0x000000000000000000#72 = .error (.reservedOp 0x00#8)
    ∧ decode 0x0B0000000000000000#72 = .error (.reservedOp 0x0B#8)

/-- R62, R64, R65: decoding gives back every encoded command, and whatever word decodes to a command
has that command's OP and, in the fields the command uses, its operands; the encoder writes zero in
the fields it does not use. -/
def Obligations.DecodeAndEncodeAgree : Prop :=
  (∀ i : Instr, decode (encode i) = .ok i)
  ∧ (∀ (w : CommandWord) (i : Instr), decode w = .ok i → commandOp (encode i) = commandOp w)
  ∧ ∀ (w : CommandWord) (i : Instr), decode w = .ok i →
    match i with
    | .construct _ _ | .reseed _ _ | .restore _ _ => encode i = w
    | .permute _ | .scramble _ => commandA (encode i) = commandA w ∧ commandB (encode i) = 0#32
    | .current | .next | .rdindex | .rdoffset | .rdstatus =>
      commandA (encode i) = 0#32 ∧ commandB (encode i) = 0#32

/-- R62 and the rows of opcode_table.json: `match` under `mask` picks the command, and the fields are
those of R60. -/
def Obligations.DecodeFollowsMatchAndMask : Prop :=
  ∀ w : CommandWord,
    (w &&& 0xFF0000000000000000#72 = 0x010000000000000000#72 →
      decode w = .ok (.permute (w.extractLsb' 32 32)))
    ∧ (w &&& 0xFF0000000000000000#72 = 0x020000000000000000#72 →
      decode w = .ok (.construct (w.extractLsb' 32 32) (w.extractLsb' 0 32)))
    ∧ (w &&& 0xFF0000000000000000#72 = 0x030000000000000000#72 → decode w = .ok .current)
    ∧ (w &&& 0xFF0000000000000000#72 = 0x040000000000000000#72 → decode w = .ok .next)
    ∧ (w &&& 0xFF0000000000000000#72 = 0x050000000000000000#72 →
      decode w = .ok (.reseed (w.extractLsb' 32 32) (w.extractLsb' 0 32)))
    ∧ (w &&& 0xFF0000000000000000#72 = 0x060000000000000000#72 →
      decode w = .ok (.scramble (w.extractLsb' 32 32)))
    ∧ (w &&& 0xFF0000000000000000#72 = 0x070000000000000000#72 → decode w = .ok .rdindex)
    ∧ (w &&& 0xFF0000000000000000#72 = 0x080000000000000000#72 → decode w = .ok .rdoffset)
    ∧ (w &&& 0xFF0000000000000000#72 = 0x090000000000000000#72 → decode w = .ok .rdstatus)
    ∧ (w &&& 0xFF0000000000000000#72 = 0x0A0000000000000000#72 →
      decode w = .ok (.restore (w.extractLsb' 32 32) (w.extractLsb' 0 32)))

/-- R65, R66: a word is rejected exactly when OP is 0x00 or 0x0B to 0xFF, by the name of that OP. -/
def Obligations.ExactlyReservedOpsAreRejected : Prop :=
  ∀ w : CommandWord,
    ((∃ i, decode w = .ok i) ↔ 0x01 ≤ w.toNat / 2 ^ 64 ∧ w.toNat / 2 ^ 64 ≤ 0x0A)
    ∧ (w.toNat / 2 ^ 64 = 0x00 ∨ 0x0B ≤ w.toNat / 2 ^ 64 →
      decode w = .error (.reservedOp (w.extractLsb' 64 8)))

/-- R64: neither the response nor the next state depends on a field a command does not use, and the
assembler's word has zero there. -/
def Obligations.UnusedFieldsAreIgnored : Prop :=
  (∀ (s : State) (op : BitVec 8) (a b b' : Word), op = 0x01#8 ∨ op = 0x06#8 →
    executeWord (packCommand op a b) s = executeWord (packCommand op a b') s)
  ∧ (∀ (s : State) (op : BitVec 8) (a a' b b' : Word),
    op = 0x03#8 ∨ op = 0x04#8 ∨ op = 0x07#8 ∨ op = 0x08#8 ∨ op = 0x09#8 →
    executeWord (packCommand op a b) s = executeWord (packCommand op a' b') s)
  ∧ (∀ x, encode (.permute x) = packCommand 0x01#8 x 0#32)
  ∧ (∀ x, encode (.scramble x) = packCommand 0x06#8 x 0#32)
  ∧ encode .current = packCommand 0x03#8 0#32 0#32 ∧ encode .next = packCommand 0x04#8 0#32 0#32
  ∧ encode .rdindex = packCommand 0x07#8 0#32 0#32
  ∧ encode .rdoffset = packCommand 0x08#8 0#32 0#32
  ∧ encode .rdstatus = packCommand 0x09#8 0#32 0#32

/-- R69 (one line's mnemonic, operand count and range): every line with as many operands as its
command takes, all in range, assembles to the encoding of its command; any other count, an operand
out of range, or a mnemonic that is none of the ten of R62, is refused. -/
def Obligations.AssembledLinesAreEncodedCommands : Prop :=
  (∀ a b : Word,
    assembleLine ⟨"PERMUTE".toList, [a.toNat]⟩ = some (encode (.permute a))
    ∧ assembleLine ⟨"CONSTRUCT".toList, [a.toNat, b.toNat]⟩ = some (encode (.construct a b))
    ∧ assembleLine ⟨"CURRENT".toList, []⟩ = some (encode .current)
    ∧ assembleLine ⟨"NEXT".toList, []⟩ = some (encode .next)
    ∧ assembleLine ⟨"RESEED".toList, [a.toNat, b.toNat]⟩ = some (encode (.reseed a b))
    ∧ assembleLine ⟨"SCRAMBLE".toList, [a.toNat]⟩ = some (encode (.scramble a))
    ∧ assembleLine ⟨"RDINDEX".toList, []⟩ = some (encode .rdindex)
    ∧ assembleLine ⟨"RDOFFSET".toList, []⟩ = some (encode .rdoffset)
    ∧ assembleLine ⟨"RDSTATUS".toList, []⟩ = some (encode .rdstatus)
    ∧ assembleLine ⟨"RESTORE".toList, [a.toNat, b.toNat]⟩ = some (encode (.restore a b)))
  ∧ (∀ (m : List Char) (ns : List Nat), (∃ n ∈ ns, 2 ^ 32 ≤ n) → assembleLine ⟨m, ns⟩ = none)
  ∧ ∀ (m : List Char) (ns : List Nat),
    (m = "PERMUTE".toList ∨ m = "SCRAMBLE".toList → ns.length ≠ 1 → assembleLine ⟨m, ns⟩ = none)
    ∧ (m = "CONSTRUCT".toList ∨ m = "RESEED".toList ∨ m = "RESTORE".toList → ns.length ≠ 2 →
      assembleLine ⟨m, ns⟩ = none)
    ∧ (m = "CURRENT".toList ∨ m = "NEXT".toList ∨ m = "RDINDEX".toList ∨ m = "RDOFFSET".toList
        ∨ m = "RDSTATUS".toList → ns ≠ [] → assembleLine ⟨m, ns⟩ = none)
    ∧ (m ∉ ["PERMUTE".toList, "CONSTRUCT".toList, "CURRENT".toList, "NEXT".toList, "RESEED".toList,
        "SCRAMBLE".toList, "RDINDEX".toList, "RDOFFSET".toList, "RDSTATUS".toList,
        "RESTORE".toList] → assembleLine ⟨m, ns⟩ = none)

/-! ## The functions (spec/40_permute.md, 41_seed.md, 42_generate.md) -/

/-- R7: PRIME is the largest prime below 2^32, exactly 5 less than 2^32, PRIME_HALF is its half, and
PRIME leaves remainder 3 on division by 4. -/
def Obligations.PrimeIsTheLargestPrimeBelowTwoPow32 : Prop :=
  Nat.Prime Config.prime ∧ (∀ q, Nat.Prime q → q < 2 ^ 32 → q ≤ Config.prime)
    ∧ Config.prime + 5 = 2 ^ 32 ∧ Config.primeHalf = Config.prime / 2 ∧ Config.prime % 4 = 3

/-- R91, in the numbers of R7. -/
def Obligations.PermuteIsItsDefinition : Prop :=
  ∀ x : Word,
    (permute x).toNat =
      if 4294967291 ≤ x.toNat then x.toNat
      else if x.toNat ≤ 2147483645 then x.toNat * x.toNat % 4294967291
      else 4294967291 - x.toNat * x.toNat % 4294967291

/-- R92: the five out-of-field inputs. -/
def Obligations.OutOfFieldInputsMapToThemselves : Prop :=
  ∀ x : Word, 0xFFFFFFFB#32 ≤ x → permute x = x

/-- R93: the 64-bit square of an in-field input is exact, and no larger than (PRIME - 1)^2; reducing
it in 64 bits gives the remainder; that largest square needs 64 bits; for 65536, 32 bits would not do. -/
def Obligations.SixtyFourBitSquareIsExact : Prop :=
  (∀ x : Word, x.toNat < 4294967291 →
    (x.setWidth 64 * x.setWidth 64).toNat = x.toNat * x.toNat
      ∧ x.toNat * x.toNat ≤ 18446744022169944100
      ∧ ((x.setWidth 64 * x.setWidth 64) % 4294967291#64).toNat = squareRemainder x)
  ∧ (0xFFFFFFFA#32).toNat = 4294967291 - 1
  ∧ (0xFFFFFFFA#32).toNat * (0xFFFFFFFA#32).toNat = 18446744022169944100
  ∧ 2 ^ 63 ≤ 18446744022169944100 ∧ 18446744022169944100 < 2 ^ 64
  ∧ squareRemainder 65536#32 = 5 ∧ 65536#32 * 65536#32 = 0#32

/-- R94: in-field inputs stay in the field, out-of-field ones out of it; PRIME_HALF itself takes the
first branch; in the second the remainder and the result are from 1 to PRIME - 1 and the subtraction is
exact. -/
def Obligations.BranchesStayInTheirRange : Prop :=
  ∀ x : Word,
    ((permute x).toNat < 4294967291 ↔ x.toNat < 4294967291)
    ∧ (x.toNat ≤ 2147483645 → (permute x).toNat = squareRemainder x)
    ∧ (2147483646 ≤ x.toNat → x.toNat ≤ 4294967290 →
      1 ≤ squareRemainder x ∧ squareRemainder x ≤ 4294967290
        ∧ (permute x).toNat + squareRemainder x = 4294967291
        ∧ 1 ≤ (permute x).toNat ∧ (permute x).toNat ≤ 4294967290)

/-- R96: every value has exactly one preimage under `permute`. -/
def Obligations.PermuteIsABijection : Prop :=
  ∀ x : Word, ∃ y : Word, permute y = x ∧ ∀ z : Word, permute z = x → z = y

/-- R97: the listed values, both sides of each boundary among them, and the listed fixed points. -/
def Obligations.PermuteHasTheListedValues : Prop :=
  permute 0#32 = 0#32 ∧ permute 1#32 = 1#32 ∧ permute 2#32 = 4#32
    ∧ permute 65535#32 = 4294836225#32 ∧ permute 65536#32 = 5#32
    ∧ permute 2147483645#32 = 1073741823#32 ∧ permute 2147483646#32 = 3221225468#32
    ∧ permute 4294967290#32 = 4294967290#32 ∧ permute 4294967289#32 = 4294967287#32
    ∧ permute 4294967291#32 = 4294967291#32 ∧ permute 4294967292#32 = 4294967292#32
    ∧ permute 4294967293#32 = 4294967293#32 ∧ permute 4294967294#32 = 4294967294#32
    ∧ permute 4294967295#32 = 4294967295#32
    ∧ 65535 * 65535 < Config.prime ∧ Config.prime ≤ 65536 * 65536 ∧ 2 ^ 32 % Config.prime = 5
    ∧ squareRemainder 2147483645#32 = 1073741823 ∧ squareRemainder 2147483646#32 = 1073741823
    ∧ squareRemainder 4294967290#32 = 1 ∧ squareRemainder 4294967289#32 = 4

/-- R99: two folds and one subtraction compute the remainder, within the bounds the note gives. -/
def Obligations.FoldedRemainderIsTheRemainder : Prop :=
  ∀ x : Word,
    foldedRemainder x = x.toNat * x.toNat % 4294967291
      ∧ foldOnce (x.toNat * x.toNat) < 6 * 2 ^ 32
      ∧ foldOnce (x.toNat * x.toNat) / 2 ^ 32 ≤ 5
      ∧ foldOnce (x.toNat * x.toNat) % 4294967291 = x.toNat * x.toNat % 4294967291
      ∧ foldOnce (foldOnce (x.toNat * x.toNat)) < 2 ^ 32 + 25
      ∧ foldOnce (foldOnce (x.toNat * x.toNat)) % 4294967291 = x.toNat * x.toNat % 4294967291

/-- R110: the three stages, with the wrap written out, and for a fixed shift a bijection. -/
def Obligations.DeriveIsItsStagesAndABijection : Prop :=
  (∀ seed shift : Word,
    derive seed shift = permute (BitVec.ofNat 32 (((permute seed).toNat + shift.toNat) % 2 ^ 32)))
  ∧ ∀ shift : Word, Function.Bijective fun seed => derive seed shift

/-- R120: the four stages in their order, addition before exclusive-or (conflict C4). -/
def Obligations.ComposeIsItsFourStages : Prop :=
  ∀ (c src off : Word) (t : Word),
    t.toNat = ((permute src).toNat + off.toNat) % 2 ^ 32 → compose c src off = permute (t ^^^ c)

/-- R121: for every offset and every XOR_CONST the composed function is a bijection. -/
def Obligations.CompositionIsABijection : Prop :=
  ∀ off c : Word, Function.Bijective fun src => compose c src off

/-! ## The ten commands -/

/-- R98: PERMUTE completes in every state, answers permute(A), and writes nothing. -/
def Obligations.PermuteCommandAnswersPermute : Prop :=
  (∀ a b : Word, decode (packCommand 0x01#8 a b) = .ok (.permute a))
  ∧ ∀ (x : Word) (s : State),
    exec (.permute x) s = .next { s with responses := s.responses ++ [⟨.ok, permute x⟩] }

/-- R111: CONSTRUCT completes in every state and derives both registers from the seed pair. -/
def Obligations.ConstructDerivesBothRegisters : Prop :=
  (∀ a b : Word, decode (packCommand 0x02#8 a b) = .ok (.construct a b))
  ∧ ∀ (a b : Word) (s : State),
    exec (.construct a b) s = .next { s with
      gen := .seeded (permute (permute a + s.params.shiftIndex))
        (permute (permute b + s.params.shiftOffset))
      responses := s.responses ++ [⟨.ok, 0#32⟩] }

/-- R112: RESEED completes in every state with CONSTRUCT's effect and response; INDEX is not zeroed
(conflict C3). -/
def Obligations.ReseedDerivesBothRegisters : Prop :=
  (∀ a b : Word, decode (packCommand 0x05#8 a b) = .ok (.reseed a b))
  ∧ ∀ (a b : Word) (s : State),
    exec (.reseed a b) s = .next { s with
      gen := .seeded (permute (permute a + s.params.shiftIndex))
        (permute (permute b + s.params.shiftOffset))
      responses := s.responses ++ [⟨.ok, 0#32⟩] }

/-- R122: CURRENT on a seeded core answers F(INDEX, OFFSET) and writes nothing; unseeded, it raises
NotSeeded. -/
def Obligations.CurrentAnswersWithoutAdvancing : Prop :=
  (∀ a b : Word, decode (packCommand 0x03#8 a b) = .ok .current)
  ∧ (∀ (s : State) (index offset : Word), s.gen = .seeded index offset →
    exec .current s = .next { s with
      responses := s.responses
        ++ [⟨.ok, permute ((permute index + offset) ^^^ s.params.xorConst)⟩] })
  ∧ ∀ s : State, s.gen = .unseeded →
    exec .current s = .next { s with responses := s.responses ++ [⟨.notSeeded, 0#32⟩] }

/-- R123: NEXT on a seeded core increments INDEX, wrapping, then answers F(new INDEX, OFFSET);
OFFSET and SEEDED stay; unseeded, it raises NotSeeded and INDEX is not advanced. -/
def Obligations.NextIncrementsThenAnswers : Prop :=
  (∀ a b : Word, decode (packCommand 0x04#8 a b) = .ok .next)
  ∧ (∀ (s : State) (index offset : Word), s.gen = .seeded index offset →
    exec .next s = .next { s with
      gen := .seeded (index + 1#32) offset
      responses := s.responses
        ++ [⟨.ok, permute ((permute (index + 1#32) + offset) ^^^ s.params.xorConst)⟩] })
  ∧ ∀ s : State, s.gen = .unseeded →
    exec .next s = .next { s with responses := s.responses ++ [⟨.notSeeded, 0#32⟩] }

/-- R124: SCRAMBLE on a seeded core answers F(A, OFFSET) whatever INDEX is, and writes nothing;
unseeded, it raises NotSeeded. -/
def Obligations.ScrambleAnswersWithoutIndex : Prop :=
  (∀ a b : Word, decode (packCommand 0x06#8 a b) = .ok (.scramble a))
  ∧ (∀ (x : Word) (s : State) (index offset : Word), s.gen = .seeded index offset →
    exec (.scramble x) s = .next { s with
      responses := s.responses
        ++ [⟨.ok, permute ((permute x + offset) ^^^ s.params.xorConst)⟩] })
  ∧ ∀ (x : Word) (s : State), s.gen = .unseeded →
    exec (.scramble x) s = .next { s with responses := s.responses ++ [⟨.notSeeded, 0#32⟩] }

/-- R140: RDINDEX on a seeded core answers INDEX; unseeded, it raises NotSeeded. -/
def Obligations.RdindexAnswersIndex : Prop :=
  (∀ a b : Word, decode (packCommand 0x07#8 a b) = .ok .rdindex)
  ∧ (∀ (s : State) (index offset : Word), s.gen = .seeded index offset →
    exec .rdindex s = .next { s with responses := s.responses ++ [⟨.ok, index⟩] })
  ∧ ∀ s : State, s.gen = .unseeded →
    exec .rdindex s = .next { s with responses := s.responses ++ [⟨.notSeeded, 0#32⟩] }

/-- R141: RDOFFSET on a seeded core answers OFFSET; unseeded, it raises NotSeeded. -/
def Obligations.RdoffsetAnswersOffset : Prop :=
  (∀ a b : Word, decode (packCommand 0x08#8 a b) = .ok .rdoffset)
  ∧ (∀ (s : State) (index offset : Word), s.gen = .seeded index offset →
    exec .rdoffset s = .next { s with responses := s.responses ++ [⟨.ok, offset⟩] })
  ∧ ∀ s : State, s.gen = .unseeded →
    exec .rdoffset s = .next { s with responses := s.responses ++ [⟨.notSeeded, 0#32⟩] }

/-- R142: RDSTATUS completes in every state and answers SEEDED, widened. -/
def Obligations.RdstatusAnswersSeeded : Prop :=
  (∀ a b : Word, decode (packCommand 0x09#8 a b) = .ok .rdstatus)
  ∧ (∀ (s : State) (index offset : Word), s.gen = .seeded index offset →
    exec .rdstatus s = .next { s with responses := s.responses ++ [⟨.ok, 1#32⟩] })
  ∧ ∀ s : State, s.gen = .unseeded →
    exec .rdstatus s = .next { s with responses := s.responses ++ [⟨.ok, 0#32⟩] }

/-- R143: RESTORE completes in every state and writes both registers from its operands. -/
def Obligations.RestoreWritesBothRegisters : Prop :=
  (∀ a b : Word, decode (packCommand 0x0A#8 a b) = .ok (.restore a b))
  ∧ ∀ (a b : Word) (s : State),
    exec (.restore a b) s = .next { s with
      gen := .seeded a b
      responses := s.responses ++ [⟨.ok, 0#32⟩] }

/-! ## Exceptions (spec/60_exceptions.md) -/

/-- R152: a reserved OP is answered with status 0x01 and R = 0; no other field changes. -/
def Obligations.IllegalCommandChangesNothing : Prop :=
  ∀ (w : CommandWord) (s : State), w.toNat / 2 ^ 64 = 0x00 ∨ 0x0B ≤ w.toNat / 2 ^ 64 →
    executeWord w s = .next { s with responses := s.responses ++ [⟨.illegalCommand, 0#32⟩] }

/-- R151, R153: a defined command answers NotSeeded exactly when it is one of the five that read a
register and SEEDED is 0, then with R = 0 and no state element written; once SEEDED is 1 no command
makes it 0; and no defined command answers IllegalCommand. -/
def Obligations.NotSeededExactlyWhenARegisterIsNeeded : Prop :=
  ∀ (i : Instr) (s : State), ∃ (g : Generator) (st : Status) (r : Word),
    exec i s = .next { s with gen := g, responses := s.responses ++ [⟨st, r⟩] }
      ∧ st ≠ .illegalCommand
      ∧ (st = .notSeeded → r = 0#32 ∧ g = s.gen)
      ∧ (s.gen ≠ .unseeded → g ≠ .unseeded)
      ∧ (st = .notSeeded ↔
        s.gen = .unseeded
          ∧ (i = .current ∨ i = .next ∨ (∃ x, i = .scramble x) ∨ i = .rdindex ∨ i = .rdoffset))

/-- R68: whatever the core executes, a response that is an error, and the response of CONSTRUCT,
RESEED and RESTORE, carries R = 0. -/
def Obligations.ErrorsAndResultlessCommandsAnswerZero : Prop :=
  ∀ (w : CommandWord) (s : State), ∃ (g : Generator) (x : Response),
    executeWord w s = .next { s with gen := g, responses := s.responses ++ [x] }
      ∧ (x.st ≠ .ok → x.r = 0#32)
      ∧ (commandOp w = 0x02#8 ∨ commandOp w = 0x05#8 ∨ commandOp w = 0x0A#8 → x = ⟨.ok, 0#32⟩)

/-- R155, R156: after a word that ends in an error, every later command is answered as if that word
had never been presented. -/
def Obligations.AnErrorLeavesNoTrace : Prop :=
  ∀ (s : State) (w : CommandWord) (q : List CommandWord),
    ((∃ e, decode w = .error e) →
      answers s (w :: q) = (answers s q).map fun rs => ⟨.illegalCommand, 0#32⟩ :: rs)
    ∧ (s.gen = .unseeded → (∃ i, decode w = .ok i ∧ needsSeeded i = true) →
      answers s (w :: q) = (answers s q).map fun rs => ⟨.notSeeded, 0#32⟩ :: rs)

/-! ## The step, the ports and reset (spec/00_scope.md, 20_memory.md, 70_reset_and_hazards.md) -/

/-- R46, and the model's DESIGN CHOICES: its schedule (notes/assumptions/5), and that the core does not
wait for responses to be taken (notes/assumptions/4): with reset released and the core to move, the
oldest accepted word leaves the port, and the step is `exec` of the command it decodes to. -/
def Obligations.StepRunsTheDecodedCommand : Prop :=
  ∀ (s : State) (w : CommandWord) (rest : List CommandWord) (i : Instr),
    s.resetLine = false → s.accepted = w :: rest → decode w = .ok i →
    (s.turns = [] → step s = exec i { s with accepted := rest })
    ∧ ∀ ts, s.turns = .core :: ts → step s = exec i { s with accepted := rest, turns := ts }

/-- The model's placing of a word (notes/assumptions/10): the very next step runs the command that
`decodeTableWord` reads, and everything else is as it was but for a released reset line. -/
def Obligations.APlacedWordRunsNext : Prop :=
  ∀ (s : State) (nbits w : Nat) (i : Instr), decodeTableWord nbits w = some i →
    step (s.withFetchWord nbits w) = exec i { s with resetLine := false }

/-- R12, R46, R61: one response per command word accepted, in order: a core move on a waiting word
completes, takes exactly the oldest word from the port and appends exactly one response behind those
waiting; no other field but the generator's changes. That the core executes in this very step although
responses wait untaken is a DESIGN CHOICE of the model (notes/assumptions/4; R187 lets the core wait for
the host's taking of a response), and so is that it moves on an empty schedule and uses up a turn
(notes/assumptions/5). -/
def Obligations.EachCommandIsAnsweredOnceInOrder : Prop :=
  ∀ (s : State) (w : CommandWord) (rest : List CommandWord),
    s.resetLine = false → s.accepted = w :: rest → (s.turns = [] ∨ ∃ ts, s.turns = .core :: ts) →
    ∃ (g : Generator) (x : Response),
      step s = .next { s with
        gen := g, accepted := rest, responses := s.responses ++ [x], turns := s.turns.tail }

/-- R13: "the core never halts": a step answers a next state in every state. -/
def Obligations.TheMachineNeverStops : Prop :=
  ∀ s : State, ∃ t, step s = .next t

/-- R12, R186: a presented word joins the command port behind those waiting, a take removes the
oldest response, and nothing else changes. -/
def Obligations.PortsAreFirstInFirstOut : Prop :=
  ∀ (s : State) (ts : List Turn),
    (∀ w, s.resetLine = false → s.turns = .host (.present w) :: ts →
      step s = .next { s with accepted := s.accepted ++ [w], turns := ts })
    ∧ (∀ x rs, s.responses = x :: rs → s.turns = .host .take :: ts →
      step s = .next { s with responses := rs, turns := ts })

/-- R180, R182: asserting reset unseeds the core and drops commands in flight and waiting responses,
leaving the hardwired constants; releasing it leaves the reset state as it stands. -/
def Obligations.AssertedResetDropsEverythingInFlight : Prop :=
  ∀ (s : State) (ts : List Turn),
    (s.turns = .host (.reset true) :: ts →
      step s = .next { params := s.params, gen := .unseeded, accepted := [], responses := [],
                       resetLine := true, turns := ts })
    ∧ (s.turns = .host (.reset false) :: ts →
      step s = .next { s with resetLine := false, turns := ts })

/-- R180: the core stays in the reset state until reset is released: from it, any move but the
release leaves every field but the schedule. -/
def Obligations.HeldResetKeepsTheResetState : Prop :=
  ∀ (s t : State), s.resetLine = true → s.gen = .unseeded → s.accepted = [] → s.responses = [] →
    (∀ ts, s.turns ≠ .host (.reset false) :: ts) → step s = .next t →
    t = { s with turns := s.turns.tail }

/-- R31, R180: the state after reset, whatever the triple is: unseeded, both ports empty, reset
released; RDSTATUS then reads 0 and NEXT answers NotSeeded. -/
def Obligations.ResetStateIsUnseededAndEmpty : Prop :=
  State.reset.gen = .unseeded ∧ State.reset.accepted = [] ∧ State.reset.responses = []
    ∧ State.reset.resetLine = false
    ∧ answers State.reset [0x090000000000000000#72] = some [⟨.ok, 0#32⟩]
    ∧ answers State.reset [0x040000000000000000#72] = some [⟨.notSeeded, 0#32⟩]

/-- The invariant `State.Inv` (R180, R67, R68) holds right after reset. -/
def Obligations.InvariantHoldsAtReset : Prop := State.reset.Inv

/-- Every step, from any state that meets `State.Inv`, gives a state that meets it. -/
def Obligations.EveryStepKeepsTheInvariant : Prop :=
  ∀ s t : State, s.Inv → step s = .next t → t.Inv

/-- R27: the hardwired constants "have the same value in every state of a run". -/
def Obligations.HardwiredTripleNeverChanges : Prop :=
  ∀ (n : Nat) (s t : State), runSteps n s = .next t → t.params = s.params

/-- R22, R181: no step but the asserting of reset makes SEEDED 0, and that one does: INDEX and OFFSET
are lost. -/
def Obligations.OnlyResetUnseeds : Prop :=
  (∀ s t : State, step s = .next t → s.gen ≠ .unseeded → t.gen = .unseeded →
    ∃ ts, s.turns = .host (.reset true) :: ts)
  ∧ ∀ (s : State) (ts : List Turn), s.turns = .host (.reset true) :: ts →
    ∃ t, step s = .next t ∧ t.gen = .unseeded

/-- R20, R21: on a seeded core INDEX changes only under CONSTRUCT, RESEED, RESTORE and NEXT (by which
it goes up by one), OFFSET only under CONSTRUCT, RESEED and RESTORE. -/
def Obligations.OnlyTheListedCommandsWriteRegisters : Prop :=
  ∀ (i : Instr) (s : State) (index offset : Word), s.gen = .seeded index offset → seeds i = false →
    ∃ x, exec i s = .next { s with
      gen := .seeded (if i = .next then index + 1#32 else index) offset
      responses := s.responses ++ [x] }

/-- R45: PERMUTE, CURRENT, SCRAMBLE, RDINDEX, RDOFFSET and RDSTATUS write no state, in any state:
executing one twice answers the same response twice and changes nothing else. -/
def Obligations.ReadingCommandsWriteNoState : Prop :=
  ∀ (i : Instr) (s : State), pureRead i = true →
    ∃ x, exec i s = .next { s with responses := s.responses ++ [x] }
      ∧ exec i { s with responses := s.responses ++ [x] }
        = .next { s with responses := s.responses ++ [x] ++ [x] }

/-- R45: CONSTRUCT, RESEED and RESTORE twice in a row leave the registers of once. -/
def Obligations.SeedingTwiceIsSeedingOnce : Prop :=
  ∀ (i : Instr) (s : State), seeds i = true →
    ∃ g, exec i s = .next { s with gen := g, responses := s.responses ++ [⟨.ok, 0#32⟩] }
      ∧ ∀ t : State, t.params = s.params →
        exec i t = .next { t with gen := g, responses := t.responses ++ [⟨.ok, 0#32⟩] }

/-- R26: what RDSTATUS returns has SEEDED in bit 0 and 0 in bits 31 to 1, in every state. -/
def Obligations.StatusIsSeededInBitZero : Prop :=
  ∀ s : State, ∃ r : Word,
    exec .rdstatus s = .next { s with responses := s.responses ++ [⟨.ok, r⟩] }
      ∧ (r.getLsbD 0 = true ↔ s.gen ≠ .unseeded) ∧ ∀ k, 1 ≤ k → r.getLsbD k = false

/-- R123, R161: at INDEX = 0xFFFFFFFF, NEXT wraps INDEX to 0 and answers F(0, OFFSET) with ST = OK. -/
def Obligations.IndexWrapsSilently : Prop :=
  ∀ (s : State) (offset : Word), s.gen = .seeded 0xFFFFFFFF#32 offset →
    exec .next s = .next { s with
      gen := .seeded 0#32 offset
      responses := s.responses ++ [⟨.ok, permute (offset ^^^ s.params.xorConst)⟩] }

/-! ## Runs (spec/00_scope.md R13) -/

/-- R113: after RESEED a, b from any state, the responses to any commands are those after
CONSTRUCT a, b from the reset state of an instance with the same triple. -/
def Obligations.ReseedRunsAsAFreshConstruct : Prop :=
  ∀ (s : State) (a b : Word) (q : List CommandWord),
    answers s (encode (.reseed a b) :: q)
      = answers { State.reset with params := s.params } (encode (.construct a b) :: q)

/-- R13 (the step is a function of state and word, given the triple) and R28 (no hidden state), of every
command word, of which R126 speaks for CURRENT, NEXT and SCRAMBLE: the response and the next generator
depend on the word, the triple and the generator alone, whatever the ports, the reset line and the
schedule hold, and those are not written but for the response appended. The same of a run of words
(R13) on a core whose ports hold other words and responses as well (which runs without takes, by
notes/assumptions/4 and 5). After the same CONSTRUCT not even the old generator matters (R114). -/
def Obligations.ResponsesDependOnRegistersAndTripleAlone : Prop :=
  (∀ (w : CommandWord) (p : Params) (g : Generator), ∃ (g' : Generator) (x : Response),
    ∀ s : State, s.params = p → s.gen = g →
      executeWord w s = .next { s with gen := g', responses := s.responses ++ [x] })
  ∧ (∀ (q : List CommandWord) (p : Params) (g : Generator),
    ∃ (g' : Generator) (xs : List Response), xs.length = q.length
      ∧ ∀ (s : State) (later : List CommandWord), s.params = p → s.gen = g →
        s.accepted = q ++ later → s.resetLine = false → s.turns = [] →
        runSteps q.length s
          = .next { s with gen := g', accepted := later, responses := s.responses ++ xs })
  ∧ ∀ (s t : State) (a b : Word) (q : List CommandWord), s.params = t.params →
    answers s (encode (.construct a b) :: q) = answers t (encode (.construct a b) :: q)

/-- R123 (its derived corner case): the k-th NEXT after the registers are INDEX0, OFFSET answers
F(INDEX0 +32 k, OFFSET). -/
def Obligations.KthNextAnswersIndexPlusK : Prop :=
  ∀ (s : State) (index offset : Word) (n : Nat), s.gen = .seeded index offset →
    answers s (List.replicate n 0x040000000000000000#72)
      = some ((List.range n).map fun k =>
          ⟨.ok, compose s.params.xorConst (index + BitVec.ofNat 32 (k + 1)) offset⟩)

/-- R125: from any seeded state, n consecutive NEXT all answer OK; up to 2^32 of them never repeat a
value, 2^32 of them give every value, and the sequence repeats with period 2^32. -/
def Obligations.NextNeverRepeatsWithinAFullCycle : Prop :=
  ∀ (s : State) (index offset : Word) (n : Nat), s.gen = .seeded index offset →
    ∃ rs, answers s (List.replicate n 0x040000000000000000#72) = some rs
      ∧ rs.length = n
      ∧ (∀ x ∈ rs, x.st = .ok)
      ∧ (n ≤ 2 ^ 32 → (rs.map Response.r).Nodup)
      ∧ (2 ^ 32 ≤ n → ∀ v : Word, v ∈ rs.map Response.r)
      ∧ ∀ k, k + 2 ^ 32 < n → rs[k + 2 ^ 32]? = rs[k]?

/-- R122, R123, R124: CURRENT right after NEXT repeats NEXT's answer and differs from CURRENT right
before it, and SCRAMBLE of the present INDEX answers as CURRENT. -/
def Obligations.CurrentAgreesWithNextAndScramble : Prop :=
  ∀ (s : State) (index offset : Word), s.gen = .seeded index offset →
    ∃ x y, answers s [encode .current, encode (.scramble index), encode .next, encode .current]
        = some [x, x, y, y]
      ∧ x.st = .ok ∧ y.st = .ok ∧ x.r ≠ y.r

/-- R29: two CURRENT with only reading commands or illegal words between them answer the same, on a
seeded core and on an unseeded one. -/
def Obligations.CurrentRepeatsAcrossReads : Prop :=
  ∀ (s : State) (q : List CommandWord),
    (∀ w ∈ q, ∀ i, decode w = .ok i → pureRead i = true) →
    ∃ x rs, rs.length = q.length
      ∧ answers s (encode .current :: (q ++ [encode .current])) = some (x :: (rs ++ [x]))

/-- R183, R150: if every command that needs SEEDED comes after the core is seeded, every command is
answered with ST = OK. -/
def Obligations.SeededFirstMeansNoErrors : Prop :=
  ∀ (s : State) (is : List Instr), bootOrder (seededFlag s.gen) is = true →
    ∃ rs, answers s (is.map encode) = some rs ∧ rs.length = is.length ∧ ∀ x ∈ rs, x.st = .ok

/-- R140, R141, R143 (its derived corner case): RDINDEX and RDOFFSET read the pair, and RESTORE of it,
in any state of the same triple (after a reset, for one), continues the run exactly. -/
def Obligations.SavedRegistersRestoreTheRun : Prop :=
  ∀ (s t : State) (index offset : Word) (q : List CommandWord),
    s.gen = .seeded index offset → t.params = s.params →
    answers s [encode .rdindex, encode .rdoffset] = some [⟨.ok, index⟩, ⟨.ok, offset⟩]
      ∧ answers t (encode (.restore index offset) :: q)
        = (answers s q).map fun rs => ⟨.ok, 0#32⟩ :: rs

/-- R110, R143: every pair of registers is reached by exactly one seed pair, whatever the triple. -/
def Obligations.EverySeedPairGivesItsOwnRegisters : Prop :=
  ∀ (s : State) (index offset : Word),
    ∃ a b, exec (.construct a b) s = exec (.restore index offset) s
      ∧ ∀ a' b', exec (.construct a' b') s = exec (.restore index offset) s → a' = a ∧ b' = b
end

