-- ==== Sys2Proof/Laws/Codec.lean ====
section
/-! SUPPORT. The three fields of a packed command word are the fields it was packed from. -/

namespace Sys2Proof

/-- Bit `k` of a packed word, by the field it falls in (spec/30_encoding.md R60). -/
theorem getLsbD_packCommand (op : BitVec 8) (a b : Word) (k : Nat) :
    (packCommand op a b).getLsbD k =
      if k < 32 then b.getLsbD k
      else if k - 32 < 32 then a.getLsbD (k - 32) else op.getLsbD (k - 32 - 32) :=
  (BitVec.getLsbD_append (x := op ++ a) (y := b) (i := k)).trans
    (by rw [BitVec.getLsbD_append])

@[simp] theorem commandOp_packCommand (op : BitVec 8) (a b : Word) :
    commandOp (packCommand op a b) = op := by
  ext j hj
  have h1 : ¬ 64 + j < 32 := by omega
  have h2 : ¬ 64 + j - 32 < 32 := by omega
  have h3 : 64 + j - 32 - 32 = j := by omega
  simp [commandOp, getLsbD_packCommand, hj, h1, h2, h3, BitVec.getLsbD_eq_getElem]

@[simp] theorem commandA_packCommand (op : BitVec 8) (a b : Word) :
    commandA (packCommand op a b) = a := by
  ext j hj
  simp [commandA, getLsbD_packCommand, hj, BitVec.getLsbD_eq_getElem]

@[simp] theorem commandB_packCommand (op : BitVec 8) (a b : Word) :
    commandB (packCommand op a b) = b := by
  ext j hj
  simp [commandB, getLsbD_packCommand, hj, BitVec.getLsbD_eq_getElem]

end Sys2Proof
end

