-- ==== Sys2Proof/Laws/State.lean ====
section
/-! SUPPORT. One lemma per field per update of the state, each true by definition, so that no later
proof unfolds a record update. -/

namespace Sys2Proof.Machine

@[simp] theorem respond_params (st : Status) (r : Word) (s : State) :
    (respond st r s).params = s.params := rfl

@[simp] theorem respond_gen (st : Status) (r : Word) (s : State) :
    (respond st r s).gen = s.gen := rfl

@[simp] theorem respond_accepted (st : Status) (r : Word) (s : State) :
    (respond st r s).accepted = s.accepted := rfl

@[simp] theorem respond_responses (st : Status) (r : Word) (s : State) :
    (respond st r s).responses = s.responses ++ [{ st := st, r := r }] := rfl

@[simp] theorem respond_resetLine (st : Status) (r : Word) (s : State) :
    (respond st r s).resetLine = s.resetLine := rfl

@[simp] theorem respond_turns (st : Status) (r : Word) (s : State) :
    (respond st r s).turns = s.turns := rfl

@[simp] theorem writeRegisters_params (index offset : Word) (s : State) :
    (writeRegisters index offset s).params = s.params := rfl

@[simp] theorem writeRegisters_gen (index offset : Word) (s : State) :
    (writeRegisters index offset s).gen = .seeded index offset := rfl

@[simp] theorem writeRegisters_accepted (index offset : Word) (s : State) :
    (writeRegisters index offset s).accepted = s.accepted := rfl

@[simp] theorem writeRegisters_responses (index offset : Word) (s : State) :
    (writeRegisters index offset s).responses = s.responses := rfl

@[simp] theorem writeRegisters_resetLine (index offset : Word) (s : State) :
    (writeRegisters index offset s).resetLine = s.resetLine := rfl

@[simp] theorem writeRegisters_turns (index offset : Word) (s : State) :
    (writeRegisters index offset s).turns = s.turns := rfl

@[simp] theorem raise_params (e : Exception) (s : State) :
    (raise e s).params = s.params := rfl

@[simp] theorem raise_gen (e : Exception) (s : State) :
    (raise e s).gen = s.gen := rfl

@[simp] theorem raise_accepted (e : Exception) (s : State) :
    (raise e s).accepted = s.accepted := rfl

@[simp] theorem raise_responses (e : Exception) (s : State) :
    (raise e s).responses = s.responses ++ [{ st := exceptionStatus e, r := 0#32 }] := rfl

@[simp] theorem raise_resetLine (e : Exception) (s : State) :
    (raise e s).resetLine = s.resetLine := rfl

@[simp] theorem raise_turns (e : Exception) (s : State) :
    (raise e s).turns = s.turns := rfl

@[simp] theorem seedFrom_params (a b : Word) (s : State) :
    (seedFrom a b s).params = s.params := rfl

@[simp] theorem seedFrom_gen (a b : Word) (s : State) :
    (seedFrom a b s).gen = .seeded (derive a s.params.shiftIndex) (derive b s.params.shiftOffset) := rfl

@[simp] theorem seedFrom_accepted (a b : Word) (s : State) :
    (seedFrom a b s).accepted = s.accepted := rfl

@[simp] theorem seedFrom_responses (a b : Word) (s : State) :
    (seedFrom a b s).responses = s.responses := rfl

@[simp] theorem seedFrom_resetLine (a b : Word) (s : State) :
    (seedFrom a b s).resetLine = s.resetLine := rfl

@[simp] theorem seedFrom_turns (a b : Word) (s : State) :
    (seedFrom a b s).turns = s.turns := rfl

@[simp] theorem takeResponse_params (s : State) :
    (takeResponse s).params = s.params := rfl

@[simp] theorem takeResponse_gen (s : State) :
    (takeResponse s).gen = s.gen := rfl

@[simp] theorem takeResponse_accepted (s : State) :
    (takeResponse s).accepted = s.accepted := rfl

@[simp] theorem takeResponse_responses (s : State) :
    (takeResponse s).responses = s.responses.tail := rfl

@[simp] theorem takeResponse_resetLine (s : State) :
    (takeResponse s).resetLine = s.resetLine := rfl

@[simp] theorem takeResponse_turns (s : State) :
    (takeResponse s).turns = s.turns := rfl

@[simp] theorem assertReset_params (s : State) :
    (assertReset s).params = s.params := rfl

@[simp] theorem assertReset_gen (s : State) :
    (assertReset s).gen = .unseeded := rfl

@[simp] theorem assertReset_accepted (s : State) :
    (assertReset s).accepted = [] := rfl

@[simp] theorem assertReset_responses (s : State) :
    (assertReset s).responses = [] := rfl

@[simp] theorem assertReset_resetLine (s : State) :
    (assertReset s).resetLine = true := rfl

@[simp] theorem assertReset_turns (s : State) :
    (assertReset s).turns = s.turns := rfl

@[simp] theorem releaseReset_params (s : State) :
    (releaseReset s).params = s.params := rfl

@[simp] theorem releaseReset_gen (s : State) :
    (releaseReset s).gen = s.gen := rfl

@[simp] theorem releaseReset_accepted (s : State) :
    (releaseReset s).accepted = s.accepted := rfl

@[simp] theorem releaseReset_responses (s : State) :
    (releaseReset s).responses = s.responses := rfl

@[simp] theorem releaseReset_resetLine (s : State) :
    (releaseReset s).resetLine = false := rfl

@[simp] theorem releaseReset_turns (s : State) :
    (releaseReset s).turns = s.turns := rfl

@[simp] theorem acceptCommand_params (w : CommandWord) (s : State) :
    (acceptCommand w s).params = s.params := by
  unfold acceptCommand
  split <;> rfl

@[simp] theorem acceptCommand_gen (w : CommandWord) (s : State) :
    (acceptCommand w s).gen = s.gen := by
  unfold acceptCommand
  split <;> rfl

@[simp] theorem acceptCommand_responses (w : CommandWord) (s : State) :
    (acceptCommand w s).responses = s.responses := by
  unfold acceptCommand
  split <;> rfl

@[simp] theorem acceptCommand_resetLine (w : CommandWord) (s : State) :
    (acceptCommand w s).resetLine = s.resetLine := by
  unfold acceptCommand
  split <;> rfl

@[simp] theorem acceptCommand_turns (w : CommandWord) (s : State) :
    (acceptCommand w s).turns = s.turns := by
  unfold acceptCommand
  split <;> rfl

theorem acceptCommand_accepted (w : CommandWord) (s : State) :
    (acceptCommand w s).accepted = if s.resetLine then s.accepted else s.accepted ++ [w] := by
  unfold acceptCommand
  split <;> rfl

@[simp] theorem reset_params : State.reset.params = Config.params := rfl

@[simp] theorem reset_gen : State.reset.gen = .unseeded := rfl

@[simp] theorem reset_accepted : State.reset.accepted = [] := rfl

@[simp] theorem reset_responses : State.reset.responses = [] := rfl

@[simp] theorem reset_resetLine : State.reset.resetLine = false := rfl

@[simp] theorem reset_turns : State.reset.turns = [] := rfl

end Sys2Proof.Machine
end

