-- ==== Sys2Proof/Laws/Ops.lean ====
section
/-! SUPPORT. What each shared operation can do, said once. -/

namespace Sys2Proof.Machine

theorem withRegisters_unseeded {s : State} (h : s.gen = .unseeded) (k : Word → Word → State) :
    withRegisters s k = raise .notSeeded s := by
  simp [withRegisters, h]

theorem withRegisters_seeded {s : State} {index offset : Word} (h : s.gen = .seeded index offset)
    (k : Word → Word → State) : withRegisters s k = k index offset := by
  simp [withRegisters, h]

/-- A read of the implicit operands either raises NotSeeded or gives the registers. -/
theorem withRegisters_cases (s : State) (k : Word → Word → State) :
    (s.gen = .unseeded ∧ withRegisters s k = raise .notSeeded s) ∨
      ∃ index offset, s.gen = .seeded index offset ∧ withRegisters s k = k index offset := by
  cases h : s.gen with
  | unseeded => exact .inl ⟨rfl, withRegisters_unseeded h k⟩
  | seeded index offset => exact .inr ⟨index, offset, rfl, withRegisters_seeded h k⟩

@[simp] theorem seededFlag_unseeded : seededFlag .unseeded = false := rfl

@[simp] theorem seededFlag_seeded (index offset : Word) : seededFlag (.seeded index offset) = true := rfl

@[simp] theorem statusRegister_unseeded : statusRegister .unseeded = 0#32 := by decide

@[simp] theorem statusRegister_seeded (index offset : Word) :
    statusRegister (.seeded index offset) = 1#32 := by
  simp [statusRegister]

theorem executeWord_command {w : CommandWord} {i : Instr} (h : decode w = .ok i) (s : State) :
    executeWord w s = exec i s := by
  simp [executeWord, h]

theorem executeWord_reserved {w : CommandWord} {e : DecodeError} (h : decode w = .error e)
    (s : State) : executeWord w s = .next (raise .illegalCommand s) := by
  simp [executeWord, h]

theorem coreMove_in_reset {s : State} (h : s.resetLine = true) : coreMove s = .next s := by
  simp [coreMove, h]

theorem coreMove_idle {s : State} (h : s.accepted = []) : coreMove s = .next s := by
  simp [coreMove, h]

theorem coreMove_command {s : State} {w : CommandWord} {rest : List CommandWord}
    (hl : s.resetLine = false) (h : s.accepted = w :: rest) :
    coreMove s = executeWord w { s with accepted := rest } := by
  simp [coreMove, hl, h]

theorem nextMove_empty {s : State} (h : s.turns = []) : nextMove s = coreMove s := by
  simp [nextMove, h]

theorem nextMove_core {s : State} {ts : List Turn} (h : s.turns = .core :: ts) :
    nextMove s = coreMove { s with turns := ts } := by
  simp [nextMove, h]

theorem nextMove_host {s : State} {m : HostMove} {ts : List Turn} (h : s.turns = .host m :: ts) :
    nextMove s = .next (hostMove m { s with turns := ts }) := by
  simp [nextMove, h]

/-- No move of the host writes the hardwired triple (R27). -/
@[simp] theorem hostMove_params (m : HostMove) (s : State) : (hostMove m s).params = s.params := by
  cases m with
  | present w => simp [hostMove]
  | take => rfl
  | reset asserted => cases asserted <;> rfl

end Sys2Proof.Machine
end

