-- ==== Sys2Proof/Laws/PerInstr.lean ====
section
/-! SUPPORT. Statements made once per command: the family `InOpcodeMap`. -/

namespace Sys2Proof.Laws.InOpcodeMap

/-- The word of a command is never in the reserved space of R66: its OP is one of 0x01 to 0x0A. -/
def Statement (i : Instr) : Prop :=
  0x01 ≤ (commandOp (encode i)).toNat ∧ (commandOp (encode i)).toNat ≤ 0x0A

theorem permute (x : Word) : Statement (.permute x) := by simp [Statement, encode]

theorem construct (a b : Word) : Statement (.construct a b) := by simp [Statement, encode]

theorem current : Statement .current := by simp [Statement, encode]

theorem next : Statement .next := by simp [Statement, encode]

theorem reseed (a b : Word) : Statement (.reseed a b) := by simp [Statement, encode]

theorem scramble (x : Word) : Statement (.scramble x) := by simp [Statement, encode]

theorem rdindex : Statement .rdindex := by simp [Statement, encode]

theorem rdoffset : Statement .rdoffset := by simp [Statement, encode]

theorem rdstatus : Statement .rdstatus := by simp [Statement, encode]

theorem restore (a b : Word) : Statement (.restore a b) := by simp [Statement, encode]

end Sys2Proof.Laws.InOpcodeMap
end

