-- ==== Sys2Proof/Laws/Run.lean ====
section
/-! SUPPORT. What executing one command word can do, and a run of words taken one word at a time. -/

namespace Sys2Proof.Machine

/-- `f` answers one response and may write the generator; which response and which generator depends
on the triple and the generator alone, and nothing else is read or written. -/
def Effect (f : State → Host.Outcome State Fault Refusal) (p : Params) (g g' : Generator)
    (x : Response) : Prop :=
  ∀ s : State, s.params = p → s.gen = g →
    f s = .next { s with gen := g', responses := s.responses ++ [x] }

theorem withRegisters_effect {k : State → Word → Word → State} {p : Params} {g : Generator}
    (hk : ∀ index offset, g = .seeded index offset →
      ∃ g' x, Effect (fun s => .next (k s index offset)) p g g' x) :
    ∃ g' x, Effect (fun s => .next (withRegisters s (k s))) p g g' x := by
  cases g with
  | unseeded =>
    refine ⟨.unseeded, ⟨.notSeeded, 0#32⟩, fun s _ hg => ?_⟩
    simp only [withRegisters_unseeded hg]
    simp [raise, respond, exceptionStatus, hg]
  | seeded index offset =>
    obtain ⟨g', x, h⟩ := hk index offset rfl
    exact ⟨g', x, fun s hp hg => by simpa only [withRegisters_seeded hg] using h s hp hg⟩

/-- Every command has an effect, and is never refused and never faults. -/
theorem exec_effect (i : Instr) (p : Params) (g : Generator) :
    ∃ g' x, Effect (exec i) p g g' x := by
  cases i with
  | permute x => exact ⟨g, ⟨.ok, permute x⟩, fun s _ hg => by subst hg; rfl⟩
  | construct a b =>
    exact ⟨.seeded (derive a p.shiftIndex) (derive b p.shiftOffset), ⟨.ok, 0#32⟩,
      fun s hp _ => by subst hp; rfl⟩
  | current =>
    exact withRegisters_effect fun index offset _ =>
      ⟨g, ⟨.ok, compose p.xorConst index offset⟩, fun s hp hg => by subst hp hg; rfl⟩
  | next =>
    exact withRegisters_effect fun index offset _ =>
      ⟨.seeded (index + 1#32) offset, ⟨.ok, compose p.xorConst (index + 1#32) offset⟩,
        fun s hp _ => by subst hp; rfl⟩
  | reseed a b =>
    exact ⟨.seeded (derive a p.shiftIndex) (derive b p.shiftOffset), ⟨.ok, 0#32⟩,
      fun s hp _ => by subst hp; rfl⟩
  | scramble x =>
    exact withRegisters_effect fun _ offset _ =>
      ⟨g, ⟨.ok, compose p.xorConst x offset⟩, fun s hp hg => by subst hp hg; rfl⟩
  | rdindex =>
    exact withRegisters_effect fun index _ _ =>
      ⟨g, ⟨.ok, index⟩, fun s _ hg => by subst hg; rfl⟩
  | rdoffset =>
    exact withRegisters_effect fun _ offset _ =>
      ⟨g, ⟨.ok, offset⟩, fun s _ hg => by subst hg; rfl⟩
  | rdstatus => exact ⟨g, ⟨.ok, statusRegister g⟩, fun s _ hg => by subst hg; rfl⟩
  | restore a b => exact ⟨.seeded a b, ⟨.ok, 0#32⟩, fun _ _ _ => rfl⟩

/-- Every command word has an effect, the illegal ones too. -/
theorem executeWord_effect (w : CommandWord) (p : Params) (g : Generator) :
    ∃ g' x, Effect (executeWord w) p g g' x := by
  cases h : decode w with
  | ok i =>
    obtain ⟨g', x, hi⟩ := exec_effect i p g
    exact ⟨g', x, fun s hp hg => (executeWord_command h s).trans (hi s hp hg)⟩
  | error e =>
    exact ⟨g, ⟨.illegalCommand, 0#32⟩, fun s _ hg => by
      rw [executeWord_reserved h]; subst hg; rfl⟩

/-- The machine's own run is the host's. -/
theorem core_run_eq_runSteps (n : Nat) (s : State) : Sys2Proof.core.run n s = runSteps n s := by
  induction n generalizing s with
  | zero => rfl
  | succ n ih =>
    simp only [runSteps, Host.Core.run, Sys2Proof.core]
    cases step s with
    | next t => exact ih t
    | fault e => rfl
    | refused e => rfl

theorem runSteps_succ_next {n : Nat} {s t : State} (h : step s = .next t) :
    runSteps (n + 1) s = runSteps n t := by
  simp [runSteps, h]

/-- One command of a run whose response port already holds `rs`. -/
theorem runSteps_cons {w : CommandWord} {p : Params} {g g' : Generator} {x : Response}
    (h : Effect (executeWord w) p g g' x) (q : List CommandWord) (rs : List Response) :
    runSteps (w :: q).length ⟨p, g, w :: q, rs, false, []⟩
      = runSteps q.length ⟨p, g', q, rs ++ [x], false, []⟩ :=
  runSteps_succ_next (h ⟨p, g, q, rs, false, []⟩ rfl rfl)

/-- A run answers every word, and its responses and its last generator depend on the triple, the
generator and the words alone. -/
theorem runSteps_answers (q : List CommandWord) (p : Params) (g : Generator) :
    ∃ g' xs, xs.length = q.length ∧ ∀ rs,
      runSteps q.length ⟨p, g, q, rs, false, []⟩ = .next ⟨p, g', [], rs ++ xs, false, []⟩ := by
  induction q generalizing g with
  | nil => exact ⟨g, [], rfl, fun rs => by simp [runSteps]⟩
  | cons w q ih =>
    obtain ⟨g₁, x, hw⟩ := executeWord_effect w p g
    obtain ⟨g₂, xs, hl, hq⟩ := ih g₁
    exact ⟨g₂, x :: xs, by simp [hl], fun rs => by rw [runSteps_cons hw, hq]; simp⟩

theorem answers_nil (s : State) : answers s [] = some [] := rfl

/-- A run taken one command word at a time. -/
theorem answers_cons {s : State} {w : CommandWord} {g' : Generator} {x : Response}
    (h : Effect (executeWord w) s.params s.gen g' x) (q : List CommandWord) :
    answers s (w :: q) = (answers { s with gen := g' } q).map fun rs => x :: rs := by
  obtain ⟨g₂, xs, -, hq⟩ := runSteps_answers q s.params g'
  simp only [answers, serve, State.offered, runSteps_cons h, hq]
  simp

end Sys2Proof.Machine
end

