-- ==== Sys2Proof/WellFormed.lean ====
section
/-! DEFINITION. The well-formedness check of the parameter triple (spec/00_scope.md R8,
spec/92_eei_decisions.md D14). A command has no check of its own: "Every one of the 2^32 values of
A, and of B, is a legal operand for every command that uses the field; no operand value is reserved"
(spec/30_encoding.md R63), and an operand of `Instr` is a `Word`, so every `Instr` is well formed.
The check of a written command line (R69) stands beside the assembler, in Machine/Assembler.lean. -/

namespace Sys2Proof

/-- "A triple is well formed when all three values are nonzero and pairwise distinct" (R8). No
meaning and no obligation assumes it: "No rule of this spec ... depends on the triple being well
formed". -/
def Params.wellFormed (p : Params) : Bool :=
  p.shiftIndex != 0 && p.shiftOffset != 0 && p.xorConst != 0
    && p.shiftIndex != p.shiftOffset && p.shiftIndex != p.xorConst && p.shiftOffset != p.xorConst

end Sys2Proof
end

