-- ==== Sys2Proof/Tests/Slice0.lean ====
section
/-! SUPPORT. Tests: each expected value is taken from spec/30_encoding.md section 8,
spec/95_test_vectors.md (CFG-A) or spec/96_test_vectors_cfg_b.md (CFG-B), or from the rule named; and
the witnesses, one for each obligation that has hypotheses. -/

namespace Sys2Proof.Machine.Tests

/-- An instance built with CFG-A, unseeded and idle. -/
def unseededA : State := { State.reset with params := Config.cfgA }

/-- An instance built with `p`, seeded and idle. -/
def seededWith (p : Params) (index offset : Word) : State :=
  { State.reset with params := p, gen := .seeded index offset }

/-- The state after `CONSTRUCT 1, 3` under CFG-A. -/
def seededA : State := seededWith Config.cfgA 4#32 121#32

/-- The generator and the responses a next state holds. -/
def view (o : Host.Outcome State Fault Refusal) : Option (Generator × List Response) :=
  match o with
  | .next s    => some (s.gen, s.responses)
  | .fault _   => none
  | .refused _ => none

/-- The decoded command, if there is one. -/
def command (w : CommandWord) : Option Instr := (decode w).toOption

/-! ## Well-formedness: the parameter triple (R8) and a written line (R69) -/

theorem test_cfgA_and_cfgB_are_well_formed :
    Config.cfgA.wellFormed = true ∧ Config.cfgB.wellFormed = true := by decide

theorem test_zero_shift_index_is_ill_formed :
    Params.wellFormed ⟨0#32, 2#32, 3#32⟩ = false := by decide

theorem test_zero_shift_offset_is_ill_formed :
    Params.wellFormed ⟨1#32, 0#32, 3#32⟩ = false := by decide

theorem test_zero_xor_const_is_ill_formed :
    Params.wellFormed ⟨1#32, 2#32, 0#32⟩ = false := by decide

theorem test_equal_shifts_are_ill_formed :
    Params.wellFormed ⟨2#32, 2#32, 3#32⟩ = false := by decide

theorem test_shift_index_equal_to_xor_const_is_ill_formed :
    Params.wellFormed ⟨3#32, 2#32, 3#32⟩ = false := by decide

theorem test_shift_offset_equal_to_xor_const_is_ill_formed :
    Params.wellFormed ⟨1#32, 3#32, 3#32⟩ = false := by decide

theorem test_line_with_unknown_mnemonic_is_ill_formed :
    CommandLine.wellFormed ⟨"NOP".toList, []⟩ = false := by decide

theorem test_line_with_missing_operand_is_ill_formed :
    CommandLine.wellFormed ⟨"CONSTRUCT".toList, [42]⟩ = false := by decide

theorem test_line_with_operand_out_of_range_is_ill_formed :
    CommandLine.wellFormed ⟨"PERMUTE".toList, [4294967296]⟩ = false := by decide

/-! ## Decoding: words written out from R60 and R62 -/

theorem test_decode_permute :
    command 0x010001000000000000#72 = some (.permute 65536#32) := by decide

theorem test_decode_construct :
    command 0x020000002A0000007F#72 = some (.construct 42#32 127#32) := by decide

theorem test_decode_current :
    command 0x030000000000000000#72 = some (.current) := by decide

theorem test_decode_next_with_junk_in_unused_fields :
    command 0x04DEADBEEF12345678#72 = some (.next) := by decide

theorem test_decode_reseed :
    command 0x05FFFFFFFF00000001#72 = some (.reseed 0xFFFFFFFF#32 1#32) := by decide

theorem test_decode_scramble :
    command 0x060000000300000000#72 = some (.scramble 3#32) := by decide

theorem test_decode_rdindex :
    command 0x070000000000000000#72 = some (.rdindex) := by decide

theorem test_decode_rdoffset :
    command 0x080000000000000000#72 = some (.rdoffset) := by decide

theorem test_decode_rdstatus :
    command 0x090000000000000000#72 = some (.rdstatus) := by decide

theorem test_decode_restore :
    command 0x0AFFFFFFFF00000004#72 = some (.restore 0xFFFFFFFF#32 4#32) := by decide

theorem test_decode_rejects_reserved_ops :
    command 0x000000000000000000#72 = none ∧ command 0x0B123456789ABCDEF0#72 = none
      ∧ command 0x140000000000000000#72 = none ∧ command 0x800000000000000004#72 = none
      ∧ command 0xFFFFFFFFFFFFFFFFFF#72 = none := by decide

theorem test_encode_writes_the_listed_words :
    encode (.permute 0xDEADBEEF#32) = 0x01DEADBEEF00000000#72
      ∧ encode (.restore 6#32 121#32) = 0x0A0000000600000079#72 := by decide

theorem test_table_word_is_numbered_from_its_least_significant_bit :
    decodeTableWord 72 0x020000002A0000007F = some (.construct 42#32 127#32)
      ∧ decodeTableWord 72 0x0B0000000000000000 = none := by decide

theorem test_response_words :
    responseWord ⟨.ok, 0xA794F893#32⟩ = 0x00A794F893#40 ∧ responseWord ⟨.illegalCommand, 0#32⟩ = 0x0100000000#40
      ∧ responseWord ⟨.notSeeded, 0#32⟩ = 0x0200000000#40 := by decide

theorem test_script_with_comments_and_expectations :
    assembleScript ["# seed".toList, "CONSTRUCT 42, 0x7F -> 0, 0".toList, []]
      = some [0x020000002A0000007F#72] := by decide

theorem test_script_scramble_hex_operand_and_blanks :
    assembleScript ["  SCRAMBLE 0xfFFFFFFf  # top".toList] = some [0x06FFFFFFFF00000000#72] := by decide

/-! ## The functions: section 2 of 95, B3.1 and B3.2 of 96 -/

theorem test_permute_both_branches :
    permute 0x12345678#32 = 0x246DDA8C#32 ∧ permute 0xDEADBEEF#32 = 0x16195B71#32 := by decide

theorem test_permute_at_its_boundaries :
    permute 0x7FFFFFFD#32 = 0x3FFFFFFF#32 ∧ permute 0x7FFFFFFE#32 = 0xBFFFFFFC#32
      ∧ permute 0x00010000#32 = 5#32 ∧ permute 0xFFFFFFFA#32 = 0xFFFFFFFA#32
      ∧ permute 0xFFFFFFFB#32 = 0xFFFFFFFB#32 := by decide

theorem test_folded_remainder :
    foldedRemainder 0xDEADBEEF#32 = 3924206730 ∧ foldedRemainder 0xFFFFFFFA#32 = 1 := by decide

theorem test_derive_with_a_wrapping_sum :
    derive 0xFFFFFFFF#32 0x682F0161#32 = 0x554104C0#32 ∧ derive 0x7F#32 0x46790905#32 = 0xD2F0205C#32 := by decide

theorem test_compose_adds_before_it_xors :
    compose 0x5BF03635#32 0xF5FD0A4A#32 0x988E0FA5#32 = 0x699CEF5C#32
      ∧ compose 3#32 0x002F88D9#32 0x0F827A09#32 = 0xA794F893#32 := by decide

/-! ## One command each: section 3 of 95 (CFG-A), B3 and BP of 96 (CFG-B) -/

theorem test_permute_answers_unseeded :
    view (exec (.permute 65536#32) (unseededA)) = some (.unseeded, [⟨.ok, 5#32⟩]) := by decide

theorem test_construct_under_cfgA :
    view (exec (.construct 1#32 3#32) (unseededA)) = some (.seeded 4#32 121#32, [⟨.ok, 0#32⟩]) := by decide

theorem test_construct_under_cfgB :
    view (exec (.construct 42#32 127#32) (seededWith Config.cfgB 0#32 0#32)) = some (.seeded 0xED999F65#32 0xD2F0205C#32, [⟨.ok, 0#32⟩]) := by decide

theorem test_current_under_cfgA :
    view (exec (.current) (seededA)) = some (.seeded 4#32 121#32, [⟨.ok, 0x4A64#32⟩]) := by decide

theorem test_current_unseeded :
    view (exec (.current) (unseededA)) = some (.unseeded, [⟨.notSeeded, 0#32⟩]) := by decide

theorem test_next_under_cfgB :
    view (exec (.next) (seededWith Config.cfgB 0xF5FD0A49#32 0x988E0FA5#32)) = some (.seeded 0xF5FD0A4A#32 0x988E0FA5#32, [⟨.ok, 0x699CEF5C#32⟩]) := by decide

theorem test_next_wraps_index :
    view (exec (.next) (seededWith Config.cfgA 0xFFFFFFFF#32 121#32)) = some (.seeded 0#32 121#32, [⟨.ok, 0x3A24#32⟩]) := by decide

theorem test_reseed_on_a_seeded_core :
    view (exec (.reseed 42#32 127#32) (seededA)) = some (.seeded 0x002F88D9#32 0x0F827A09#32, [⟨.ok, 0#32⟩]) := by decide

theorem test_reseed_does_not_zero_index :
    view (exec (.reseed 0#32 0#32) (unseededA)) = some (.seeded 1#32 4#32, [⟨.ok, 0#32⟩]) := by decide

theorem test_scramble_under_cfgB :
    view (exec (.scramble 3#32) (seededWith Config.cfgB 0xED999F65#32 0xD2F0205C#32)) = some (.seeded 0xED999F65#32 0xD2F0205C#32, [⟨.ok, 0xEF78AF8C#32⟩]) := by decide

theorem test_scramble_unseeded :
    view (exec (.scramble 5#32) (unseededA)) = some (.unseeded, [⟨.notSeeded, 0#32⟩]) := by decide

theorem test_rdindex_seeded :
    view (exec (.rdindex) (seededA)) = some (.seeded 4#32 121#32, [⟨.ok, 4#32⟩]) := by decide

theorem test_rdindex_unseeded :
    view (exec (.rdindex) (unseededA)) = some (.unseeded, [⟨.notSeeded, 0#32⟩]) := by decide

theorem test_rdoffset_seeded :
    view (exec (.rdoffset) (seededA)) = some (.seeded 4#32 121#32, [⟨.ok, 121#32⟩]) := by decide

theorem test_rdoffset_unseeded :
    view (exec (.rdoffset) (unseededA)) = some (.unseeded, [⟨.notSeeded, 0#32⟩]) := by decide

theorem test_rdstatus_seeded :
    view (exec (.rdstatus) (seededA)) = some (.seeded 4#32 121#32, [⟨.ok, 1#32⟩]) := by decide

theorem test_rdstatus_unseeded :
    view (exec (.rdstatus) (unseededA)) = some (.unseeded, [⟨.ok, 0#32⟩]) := by decide

theorem test_restore_seeds_an_unseeded_core :
    view (exec (.restore 6#32 121#32) (unseededA)) = some (.seeded 6#32 121#32, [⟨.ok, 0#32⟩]) := by decide

theorem test_illegal_word_changes_nothing :
    view (executeWord 0x0B123456789ABCDEF0#72 seededA)
      = some (.seeded 4#32 121#32, [⟨.illegalCommand, 0#32⟩]) := by decide

theorem test_placed_word_runs_as_the_first_step :
    view (step (State.reset.withFetchWord 72 0x090000000000000000))
      = some (.unseeded, [⟨.ok, 0#32⟩]) := by decide

theorem test_presented_word_waits_at_the_port :
    view (step { seededA with turns := [.host (.present 0x040000000000000000#72)] })
      = some (.seeded 4#32 121#32, []) := by decide

theorem test_reset_unseeds_and_drops :
    view (step { seededA with responses := [⟨.ok, 1#32⟩], turns := [.host (.reset true)] })
      = some (.unseeded, []) := by decide

/-! ## Witnesses: concrete values that meet all the hypotheses of an obligation together -/

theorem witness_DecodeAndEncodeAgree :
    (∃ i, decode 0x04DEADBEEF12345678#72 = .ok i) ∧ ∃ i, decode 0x0AFFFFFFFF00000004#72 = .ok i := ⟨⟨_, rfl⟩, ⟨_, rfl⟩⟩

theorem witness_DecodeFollowsMatchAndMask :
    0x01DEADBEEF12345678#72 &&& 0xFF0000000000000000#72 = 0x010000000000000000#72
      ∧ 0x02DEADBEEF12345678#72 &&& 0xFF0000000000000000#72 = 0x020000000000000000#72
      ∧ 0x03DEADBEEF12345678#72 &&& 0xFF0000000000000000#72 = 0x030000000000000000#72
      ∧ 0x04DEADBEEF12345678#72 &&& 0xFF0000000000000000#72 = 0x040000000000000000#72
      ∧ 0x05DEADBEEF12345678#72 &&& 0xFF0000000000000000#72 = 0x050000000000000000#72
      ∧ 0x06DEADBEEF12345678#72 &&& 0xFF0000000000000000#72 = 0x060000000000000000#72
      ∧ 0x07DEADBEEF12345678#72 &&& 0xFF0000000000000000#72 = 0x070000000000000000#72
      ∧ 0x08DEADBEEF12345678#72 &&& 0xFF0000000000000000#72 = 0x080000000000000000#72
      ∧ 0x09DEADBEEF12345678#72 &&& 0xFF0000000000000000#72 = 0x090000000000000000#72
      ∧ 0x0ADEADBEEF12345678#72 &&& 0xFF0000000000000000#72 = 0x0A0000000000000000#72 := by decide

theorem witness_ExactlyReservedOpsAreRejected :
    (0x00FFFFFFFFFFFFFFFF#72).toNat / 2 ^ 64 = 0x00 ∧ 0x0B ≤ (0x0B0000000000000000#72).toNat / 2 ^ 64 := by decide

theorem witness_UnusedFieldsAreIgnored :
    (0x06#8 = 0x01#8 ∨ 0x06#8 = 0x06#8)
      ∧ (0x09#8 = 0x03#8 ∨ 0x09#8 = 0x04#8 ∨ 0x09#8 = 0x07#8 ∨ 0x09#8 = 0x08#8 ∨ 0x09#8 = 0x09#8) := by decide

theorem witness_AssembledLinesAreEncodedCommands :
    (∃ n ∈ [1, 4294967296], 2 ^ 32 ≤ n) ∧ [1, 2].length ≠ 1 ∧ [1].length ≠ 2 ∧ [1] ≠ []
      ∧ "NOP".toList ∉ ["PERMUTE".toList, "CONSTRUCT".toList, "CURRENT".toList, "NEXT".toList,
        "RESEED".toList, "SCRAMBLE".toList, "RDINDEX".toList, "RDOFFSET".toList, "RDSTATUS".toList,
        "RESTORE".toList] := by decide

theorem witness_PrimeIsTheLargestPrimeBelowTwoPow32 :
    Nat.Prime 2 ∧ 2 < 2 ^ 32 := ⟨Nat.prime_two, by decide⟩

theorem witness_OutOfFieldInputsMapToThemselves :
    0xFFFFFFFB#32 ≤ 0xFFFFFFFB#32 ∧ 0xFFFFFFFB#32 ≤ 0xFFFFFFFF#32 := by decide

theorem witness_SixtyFourBitSquareIsExact :
    (0xFFFFFFFA#32).toNat < 4294967291 := by decide

theorem witness_BranchesStayInTheirRange :
    2147483646 ≤ (0x7FFFFFFE#32).toNat ∧ (0x7FFFFFFE#32).toNat ≤ 4294967290
      ∧ 2147483646 ≤ (0xFFFFFFFA#32).toNat ∧ (0xFFFFFFFA#32).toNat ≤ 4294967290 := by decide

theorem witness_PermuteIsABijection :
    permute 2#32 = 4#32 := by decide

theorem witness_ComposeIsItsFourStages :
    (0#32).toNat = ((permute 0x00010000#32).toNat + (0xFFFFFFFB#32).toNat) % 2 ^ 32 := by decide

/-- For CURRENT, NEXT, SCRAMBLE, RDINDEX, RDOFFSET and RDSTATUS on a seeded core, and for
KthNextAnswersIndexPlusK and CurrentAgreesWithNextAndScramble. -/
theorem witness_of_a_seeded_core :
    seededA.gen = .seeded 4#32 121#32 := rfl

/-- For the same commands on an unseeded core. -/
theorem witness_of_an_unseeded_core :
    unseededA.gen = .unseeded := rfl

theorem witness_IllegalCommandChangesNothing :
    (0x000000000000000000#72).toNat / 2 ^ 64 = 0x00 ∧ 0x0B ≤ (0xFFFFFFFFFFFFFFFFFF#72).toNat / 2 ^ 64 := by decide

theorem witness_ErrorsAndResultlessCommandsAnswerZero :
    view (executeWord 0x040000000000000000#72 unseededA) = some (.unseeded, [⟨.notSeeded, 0#32⟩])
      ∧ commandOp 0x0A0000000600000079#72 = 0x0A#8 := by decide

theorem witness_AnErrorLeavesNoTrace :
    (∃ e, decode 0x000000000000000000#72 = .error e)
      ∧ unseededA.gen = .unseeded ∧ ∃ i, decode 0x040000000000000000#72 = .ok i ∧ needsSeeded i = true := ⟨⟨_, rfl⟩, rfl, ⟨_, rfl, rfl⟩⟩

theorem witness_StepRunsTheDecodedCommand :
    ∃ s : State, s.resetLine = false ∧ s.accepted = [0x040000000000000000#72]
      ∧ decode 0x040000000000000000#72 = .ok .next ∧ s.turns = [] := ⟨{ seededA with accepted := [0x040000000000000000#72] }, rfl, rfl, rfl, rfl⟩

theorem witness_StepRunsTheDecodedCommand_scheduled :
    ∃ s : State, s.resetLine = false ∧ s.accepted = [0x040000000000000000#72]
      ∧ decode 0x040000000000000000#72 = .ok .next ∧ s.turns = [.core] := ⟨{ seededA with accepted := [0x040000000000000000#72], turns := [.core] }, rfl, rfl, rfl, rfl⟩

theorem witness_APlacedWordRunsNext :
    decodeTableWord 72 0x060000000300000000 = some (.scramble 3#32) := by decide

theorem witness_EachCommandIsAnsweredOnceInOrder :
    ∃ s : State, s.resetLine = false ∧ s.accepted = [0#72]
      ∧ (s.turns = [] ∨ ∃ ts, s.turns = .core :: ts) := ⟨{ seededA with accepted := [0#72], turns := [.core] }, rfl, rfl, .inr ⟨[], rfl⟩⟩

theorem witness_PortsAreFirstInFirstOut :
    ∃ s t : State, s.resetLine = false ∧ s.turns = [.host (.present 0#72)]
      ∧ t.responses = [⟨.ok, 1#32⟩] ∧ t.turns = [.host .take] := ⟨{ seededA with turns := [.host (.present 0#72)] },
      { seededA with responses := [⟨.ok, 1#32⟩], turns := [.host .take] }, rfl, rfl, rfl, rfl⟩

theorem witness_AssertedResetDropsEverythingInFlight :
    ∃ s t : State, s.turns = [.host (.reset true)] ∧ t.turns = [.host (.reset false)] := ⟨{ seededA with turns := [.host (.reset true)] }, { seededA with turns := [.host (.reset false)] },
      rfl, rfl⟩

theorem witness_HeldResetKeepsTheResetState :
    ∃ s t : State, s.resetLine = true ∧ s.gen = .unseeded ∧ s.accepted = [] ∧ s.responses = []
      ∧ (∀ ts, s.turns ≠ .host (.reset false) :: ts) ∧ step s = .next t := ⟨{ unseededA with resetLine := true, turns := [.host (.present 0#72)] },
      { unseededA with resetLine := true }, rfl, rfl, rfl, rfl, (by intro ts h; cases h), rfl⟩

theorem witness_EveryStepKeepsTheInvariant :
    ∃ s t : State, s.Inv ∧ step s = .next t ∧ s.resetLine = true := ⟨{ unseededA with resetLine := true }, _,
      ⟨fun _ => ⟨rfl, rfl, rfl⟩, fun x hx => by cases hx⟩, rfl, rfl⟩

theorem witness_HardwiredTripleNeverChanges :
    ∃ t, runSteps 2 seededA = .next t := ⟨_, rfl⟩

theorem witness_OnlyResetUnseeds :
    ∃ s t : State, step s = .next t ∧ s.gen ≠ .unseeded ∧ t.gen = .unseeded
      ∧ s.turns = [.host (.reset true)] := ⟨{ seededA with turns := [.host (.reset true)] }, _, rfl, by decide, rfl, rfl⟩

theorem witness_OnlyTheListedCommandsWriteRegisters :
    seededA.gen = .seeded 4#32 121#32 ∧ seeds .next = false ∧ seeds .current = false := ⟨rfl, rfl, rfl⟩

theorem witness_ReadingCommandsWriteNoState :
    pureRead .current = true ∧ pureRead (.scramble 3#32) = true := by decide

theorem witness_SeedingTwiceIsSeedingOnce :
    seeds (.restore 6#32 121#32) = true ∧ seededA.params = unseededA.params := ⟨rfl, rfl⟩

theorem witness_IndexWrapsSilently :
    (seededWith Config.cfgA 0xFFFFFFFF#32 121#32).gen = .seeded 0xFFFFFFFF#32 121#32 := rfl

theorem witness_ResponsesDependOnRegistersAndTripleAlone :
    (∃ s t : State, s.params = t.params ∧ s.gen = t.gen ∧ s.responses ≠ t.responses
        ∧ s.resetLine ≠ t.resetLine)
      ∧ ∃ s : State, s.params = Config.cfgA ∧ s.gen = .seeded 4#32 121#32
        ∧ s.accepted = [0x040000000000000000#72] ++ [0x090000000000000000#72]
        ∧ s.responses = [⟨.ok, 1#32⟩] ∧ s.resetLine = false ∧ s.turns = [] :=
  ⟨⟨seededA, { seededA with responses := [⟨.ok, 1#32⟩], resetLine := true }, rfl, rfl,
      by decide, by decide⟩,
    { seededA with
        accepted := [0x040000000000000000#72, 0x090000000000000000#72]
        responses := [⟨.ok, 1#32⟩] }, rfl, rfl, rfl, rfl, rfl, rfl⟩

theorem witness_NextNeverRepeatsWithinAFullCycle :
    seededA.gen = .seeded 4#32 121#32 ∧ 2 ≤ 2 ^ 32 ∧ 2 ^ 32 ≤ 2 ^ 32 + 1 ∧ 0 + 2 ^ 32 < 2 ^ 32 + 1 := ⟨rfl, by decide, by decide, by decide⟩

theorem witness_CurrentRepeatsAcrossReads :
    ∀ w ∈ [(0x000000000000000000#72 : CommandWord)], ∀ i, decode w = .ok i → pureRead i = true := by
  intro w hw i hi
  simp at hw
  subst hw
  cases hi

theorem witness_SeededFirstMeansNoErrors :
    bootOrder (seededFlag unseededA.gen) [.permute 3#32, .construct 0#32 0#32, .next] = true := rfl

theorem witness_SavedRegistersRestoreTheRun :
    seededA.gen = .seeded 4#32 121#32 ∧ unseededA.params = seededA.params := ⟨rfl, rfl⟩

theorem witness_EverySeedPairGivesItsOwnRegisters :
    exec (.construct 1#32 3#32) unseededA = exec (.restore 4#32 121#32) unseededA := rfl

end Sys2Proof.Machine.Tests
end

section
/-! PRIME is prime, by the factors of `PRIME - 1` (Lucas's test), and none of the four numbers between
PRIME and `2^32` is (spec/00_scope.md R7). -/

namespace Sys2Proof.Machine

/-- The prime divisors of `PRIME - 1 = 2 * 5 * 19 * 22605091`. -/
theorem prime_dvd_prime_sub_one {q : ℕ} (hq : q.Prime) (h : q ∣ Config.prime - 1) :
    q = 2 ∨ q = 5 ∨ q = 19 ∨ q = 22605091 := by
  have factored : Config.prime - 1 = 2 * 5 * 19 * 22605091 := rfl
  rw [factored, hq.dvd_mul, hq.dvd_mul, hq.dvd_mul,
    Nat.prime_dvd_prime_iff_eq hq (by norm_num), Nat.prime_dvd_prime_iff_eq hq (by norm_num),
    Nat.prime_dvd_prime_iff_eq hq (by norm_num), Nat.prime_dvd_prime_iff_eq hq (by norm_num)] at h
  tauto

theorem two_pow_prime_sub_one : (2 : ZMod 4294967291) ^ 4294967290 = 1 := by
  reduce_mod_char

/-- The order of 2 modulo PRIME is no proper divisor of `PRIME - 1`. -/
theorem two_pow_prime_sub_one_div_ne_one {q : ℕ} (h : q = 2 ∨ q = 5 ∨ q = 19 ∨ q = 22605091) :
    (2 : ZMod 4294967291) ^ (4294967290 / q) ≠ 1 := by
  obtain rfl | rfl | rfl | rfl := h <;> (reduce_mod_char; decide)

/-- Lucas's test with 2, whose order modulo PRIME is `PRIME - 1`. -/
theorem prime_config_prime : Nat.Prime Config.prime :=
  lucas_primality Config.prime (2 : ZMod 4294967291) two_pow_prime_sub_one fun _ hq hdvd =>
    two_pow_prime_sub_one_div_ne_one (prime_dvd_prime_sub_one hq hdvd)

/-- The four numbers above PRIME are `4 * 1073741823`, `9241 * 464773`, `2 * 2147483647` and
`3 * 1431655765`. -/
theorem le_prime_of_prime_lt {q : ℕ} (hq : q.Prime) (h : q < 2 ^ 32) : q ≤ Config.prime := by
  by_contra hgt
  have : q = 4294967292 ∨ q = 4294967293 ∨ q = 4294967294 ∨ q = 4294967295 := by
    unfold Config.prime at hgt
    omega
  obtain rfl | rfl | rfl | rfl := this <;> norm_num at hq

/-- Settles O9: Lucas's test for PRIME itself, a factor for each number above it. -/
theorem primeIsTheLargestPrimeBelowTwoPow32 : Obligations.PrimeIsTheLargestPrimeBelowTwoPow32 :=
  ⟨prime_config_prime, fun _ => le_prime_of_prime_lt, rfl, rfl, rfl⟩

end Sys2Proof.Machine
end

section
/-! What one step and one run of words can do, said once for every command word. -/

namespace Sys2Proof.Machine

/-- A core turn, scheduled or by the empty schedule, is a move of the core that uses the turn up. -/
theorem step_of_core_turn {s : State} (h : s.turns = [] ∨ ∃ ts, s.turns = .core :: ts) :
    step s = coreMove { s with turns := s.turns.tail } := by
  obtain h | ⟨ts, h⟩ := h
  · cases s
    subst h
    rfl
  · rw [step, nextMove_core h, h, List.tail_cons]

/-- On a core turn with reset released the oldest accepted word executes (R46). -/
theorem step_of_waiting_word {s : State} {w : CommandWord} {rest : List CommandWord}
    (hl : s.resetLine = false) (ha : s.accepted = w :: rest)
    (ht : s.turns = [] ∨ ∃ ts, s.turns = .core :: ts) :
    step s = executeWord w { s with accepted := rest, turns := s.turns.tail } :=
  (step_of_core_turn ht).trans (coreMove_command hl ha)

/-- Every command word is answered: no fault, no refusal (R13). -/
theorem executeWord_completes (w : CommandWord) (s : State) : ∃ t, executeWord w s = .next t :=
  let ⟨_, _, h⟩ := executeWord_effect w s.params s.gen
  ⟨_, h s rfl rfl⟩

/-- The core's move completes whether it is held in reset, idle or answers a word. -/
theorem coreMove_completes (s : State) : ∃ t, coreMove s = .next t := by
  cases hl : s.resetLine with
  | true => exact ⟨s, coreMove_in_reset hl⟩
  | false =>
    cases ha : s.accepted with
    | nil => exact ⟨s, coreMove_idle ha⟩
    | cons w rest => rw [coreMove_command hl ha]; exact executeWord_completes w _

/-- A word read from the table decodes to the command read. -/
theorem decode_of_decodeTableWord {nbits w : Nat} {i : Instr} (h : decodeTableWord nbits w = some i) :
    decode (commandWordOfBits nbits w) = .ok i := by
  unfold decodeTableWord at h
  split at h
  case h_1 j hj => cases h; exact hj
  case h_2 => cases h

@[simp] theorem decode_encode (i : Instr) : decode (encode i) = .ok i := by
  cases i <;> simp [decode, encode]

/-- CONSTRUCT's response and its registers do not depend on the generator it replaces (R111, R114). -/
theorem executeWord_construct_effect (a b : Word) (p : Params) (g : Generator) :
    Effect (executeWord (encode (.construct a b))) p g
      (.seeded (derive a p.shiftIndex) (derive b p.shiftOffset)) ⟨.ok, 0#32⟩ := by
  intro s hp _
  rw [executeWord_command (decode_encode _), ← hp]
  rfl

/-- The answers to a list of words depend on the triple and the generator alone. -/
theorem answers_congr {s t : State} (hp : s.params = t.params) (hg : s.gen = t.gen)
    (q : List CommandWord) : answers s q = answers t q := by
  simp only [answers, serve, State.offered, hp, hg]

/-- A run over the words `q` at the head of the command port, whatever waits behind them and at the
response port: its responses and last generator depend on the triple and the generator alone. -/
theorem runSteps_of_waiting_words (q : List CommandWord) (p : Params) (g : Generator) :
    ∃ (g' : Generator) (xs : List Response), xs.length = q.length
      ∧ ∀ (s : State) (later : List CommandWord), s.params = p → s.gen = g →
        s.accepted = q ++ later → s.resetLine = false → s.turns = [] →
        runSteps q.length s
          = .next { s with gen := g', accepted := later, responses := s.responses ++ xs } := by
  induction q generalizing g with
  | nil =>
    refine ⟨g, [], rfl, fun s later _ hg ha _ _ => ?_⟩
    rw [List.nil_append] at ha
    subst hg ha
    simp [runSteps]
  | cons w q ih =>
    obtain ⟨g₁, x, hw⟩ := executeWord_effect w p g
    obtain ⟨g₂, xs, hlen, hq⟩ := ih g₁
    refine ⟨g₂, x :: xs, by simp [hlen], fun s later hp hg ha hl ht => ?_⟩
    have hstep := (step_of_waiting_word hl ha (.inl ht)).trans (hw _ hp hg)
    calc runSteps (w :: q).length s
      _ = runSteps q.length _ := runSteps_succ_next hstep
      _ = _ := hq _ later hp rfl rfl hl (by simp [ht])
      _ = _ := by simp [ht]

end Sys2Proof.Machine
end

section
/-! The statements of spec/00_scope.md about the step and the run. -/

namespace Sys2Proof.Machine

/-- Settles O36: the step executes the word, and every word has an effect. -/
theorem eachCommandIsAnsweredOnceInOrder : Obligations.EachCommandIsAnsweredOnceInOrder := by
  intro s w rest hl ha ht
  obtain ⟨g, x, hw⟩ := executeWord_effect w s.params s.gen
  exact ⟨g, x, (step_of_waiting_word hl ha ht).trans (hw _ rfl rfl)⟩

/-- Settles O52: the effect of one word, the induction over a run of words, and CONSTRUCT's effect,
after which two states of one triple have one generator. -/
theorem responsesDependOnRegistersAndTripleAlone :
    Obligations.ResponsesDependOnRegistersAndTripleAlone := by
  refine ⟨executeWord_effect, runSteps_of_waiting_words, fun s t a b q hp => ?_⟩
  rw [answers_cons (executeWord_construct_effect a b s.params s.gen),
    answers_cons (executeWord_construct_effect a b t.params t.gen), hp]
  exact congrArg (Option.map _) (answers_congr rfl rfl q)

/-- Settles O35: the placed word is the oldest one, and the turn placed with it is the core's. -/
theorem aPlacedWordRunsNext : Obligations.APlacedWordRunsNext := by
  intro s nbits w i h
  exact (step_of_waiting_word rfl rfl (.inr ⟨s.turns, rfl⟩)).trans
    (executeWord_command (decode_of_decodeTableWord h) _)

/-- Settles O37: each of the three turns completes. That the core idles with no word accepted is the
model's choice (notes/assumptions/10). -/
theorem theMachineNeverStops : Obligations.TheMachineNeverStops := by
  intro s
  cases ht : s.turns with
  | nil => rw [step_of_core_turn (.inl ht)]; exact coreMove_completes _
  | cons turn ts =>
    cases turn with
    | core => rw [step_of_core_turn (.inr ⟨ts, ht⟩)]; exact coreMove_completes _
    | host m => exact ⟨_, nextMove_host ht⟩

end Sys2Proof.Machine
end

section
/-! What every step keeps, and the generator after each command that seeds nothing
(spec/10_state.md). -/

namespace Sys2Proof.Machine

/-- What every step keeps, every run keeps. -/
theorem runSteps_keeps {P : State → Prop} (hstep : ∀ s t, step s = .next t → P s → P t) {n : Nat}
    {s t : State} (h : runSteps n s = .next t) (hs : P s) : P t := by
  induction n generalizing s with
  | zero =>
    cases h
    exact hs
  | succ n ih =>
    obtain ⟨u, hu⟩ := theMachineNeverStops s
    rw [runSteps_succ_next hu] at h
    exact ih h (hstep s u hu hs)

theorem executeWord_params {w : CommandWord} {s t : State} (h : executeWord w s = .next t) :
    t.params = s.params := by
  obtain ⟨g, x, hw⟩ := executeWord_effect w s.params s.gen
  cases (hw s rfl rfl).symm.trans h
  rfl

theorem coreMove_params {s t : State} (h : coreMove s = .next t) : t.params = s.params := by
  cases hl : s.resetLine with
  | true =>
    cases (coreMove_in_reset hl).symm.trans h
    rfl
  | false =>
    cases ha : s.accepted with
    | nil =>
      cases (coreMove_idle ha).symm.trans h
      rfl
    | cons w rest => exact (executeWord_params ((coreMove_command hl ha).symm.trans h) :)

/-- Neither the core nor the host writes the hardwired triple (R27). -/
theorem step_params {s t : State} (h : step s = .next t) : t.params = s.params := by
  cases ht : s.turns with
  | nil => exact coreMove_params ((nextMove_empty ht).symm.trans h)
  | cons turn ts =>
    cases turn with
    | core => exact (coreMove_params ((nextMove_core ht).symm.trans h) :)
    | host m =>
      cases (nextMove_host ht).symm.trans h
      exact hostMove_params m _

/-- A command that needs SEEDED answers NotSeeded on an unseeded core and writes nothing (R153). -/
theorem exec_needsSeeded_effect {i : Instr} (hn : needsSeeded i = true) (p : Params) :
    Effect (exec i) p .unseeded .unseeded ⟨.notSeeded, 0#32⟩ := by
  intro s _ hg
  have hraise : exec i s = .next (raise .notSeeded s) := by
    cases i with
    | current | next | scramble | rdindex | rdoffset =>
      exact congrArg Host.Outcome.next (withRegisters_unseeded hg _)
    | permute | construct | reseed | rdstatus | restore => cases hn
  rw [hraise, ← hg]
  rfl

/-- An effect that leaves the generator leaves it on an unseeded core too, where NotSeeded is raised
in its place. -/
theorem withRegisters_gen {s : State} {k : Word → Word → State}
    (hk : ∀ index offset, (k index offset).gen = s.gen) : (withRegisters s k).gen = s.gen := by
  obtain ⟨-, h⟩ | ⟨index, offset, -, h⟩ := withRegisters_cases s k
  · rw [h, raise_gen]
  · rw [h, hk]

theorem exec_pureRead_gen {i : Instr} {s t : State} (hr : pureRead i = true)
    (h : exec i s = .next t) : t.gen = s.gen := by
  cases i with
  | permute | rdstatus =>
    cases h
    rfl
  | current | scramble | rdindex | rdoffset =>
    cases h
    exact withRegisters_gen fun _ _ => rfl
  | construct | next | reseed | restore => cases hr

/-- A reading command answers one response and writes no state (R45). -/
theorem exec_pureRead_effect {i : Instr} (hr : pureRead i = true) (p : Params) (g : Generator) :
    ∃ x, Effect (exec i) p g g x := by
  obtain ⟨g', x, h⟩ := exec_effect i p g
  have hg : g' = g := exec_pureRead_gen hr (h ⟨p, g, [], [], false, []⟩ rfl rfl)
  exact ⟨x, hg ▸ h⟩

/-- NEXT on a seeded core (R123). -/
theorem exec_next_effect (p : Params) (index offset : Word) :
    Effect (exec .next) p (.seeded index offset) (.seeded (index + 1#32) offset)
      ⟨.ok, compose p.xorConst (index + 1#32) offset⟩ := by
  intro s hp hg
  subst hp
  exact congrArg Host.Outcome.next (withRegisters_seeded hg _)

/-- A command that does not seed is NEXT or one that only reads (R20, R45). -/
theorem eq_next_or_pureRead {i : Instr} (h : seeds i = false) : i = .next ∨ pureRead i = true := by
  cases i with
  | next => exact .inl rfl
  | permute | current | scramble | rdindex | rdoffset | rdstatus => exact .inr rfl
  | construct | reseed | restore => cases h

theorem exec_rdstatus_effect (p : Params) (g : Generator) :
    Effect (exec .rdstatus) p g g ⟨.ok, statusRegister g⟩ := by
  intro s _ hg
  subst hg
  rfl

theorem seededFlag_iff {g : Generator} : seededFlag g = true ↔ g ≠ .unseeded := by
  cases g <;> simp

/-- The bits of STATUS: SEEDED in bit 0, nothing above (R26). -/
theorem getLsbD_statusRegister (g : Generator) (k : Nat) :
    (statusRegister g).getLsbD k = (decide (k = 0) && seededFlag g) := by
  cases g <;> simp

/-- The effect of a word is that of the command it decodes to. -/
theorem executeWord_effect_of_command {w : CommandWord} {i : Instr} {p : Params} {g g' : Generator}
    {x : Response} (hw : decode w = .ok i) (hi : Effect (exec i) p g g' x) :
    Effect (executeWord w) p g g' x :=
  fun s hp hg => (executeWord_command hw s).trans (hi s hp hg)

/-- A word of a reading command, or of no command, writes no state (R45, R152). -/
theorem executeWord_read_effect {w : CommandWord}
    (hr : ∀ i, decode w = .ok i → pureRead i = true) (p : Params) (g : Generator) :
    ∃ x, Effect (executeWord w) p g g x := by
  cases hd : decode w with
  | ok i =>
    obtain ⟨x, hx⟩ := exec_pureRead_effect (hr i hd) p g
    exact ⟨x, executeWord_effect_of_command hd hx⟩
  | error e =>
    refine ⟨⟨.illegalCommand, 0#32⟩, fun s _ hg => ?_⟩
    subst hg
    exact executeWord_reserved hd s

theorem answers_singleton {s : State} {w : CommandWord} {g' : Generator} {x : Response}
    (h : Effect (executeWord w) s.params s.gen g' x) : answers s [w] = some [x] :=
  answers_cons h []

/-- Reading commands and illegal words are answered one by one, and what follows them is answered
as if they had not been presented. -/
theorem answers_append_of_reads {s : State} {q : List CommandWord}
    (hr : ∀ w ∈ q, ∀ i, decode w = .ok i → pureRead i = true) (later : List CommandWord) :
    ∃ rs, rs.length = q.length ∧ answers s (q ++ later) = (answers s later).map (rs ++ ·) := by
  induction q with
  | nil => exact ⟨[], rfl, by simp⟩
  | cons w q ih =>
    obtain ⟨hw, hq⟩ := List.forall_mem_cons.mp hr
    obtain ⟨x, hx⟩ := executeWord_read_effect hw s.params s.gen
    obtain ⟨rs, hlen, hrs⟩ := ih hq
    refine ⟨x :: rs, by simp [hlen], ?_⟩
    rw [List.cons_append, answers_cons hx, hrs, Option.map_map]
    rfl

end Sys2Proof.Machine
end

section
/-! The statements of spec/10_state.md. -/

namespace Sys2Proof.Machine

/-- Settles O44: every step keeps the triple. -/
theorem hardwiredTripleNeverChanges : Obligations.HardwiredTripleNeverChanges := by
  intro n s t h
  exact runSteps_keeps (P := fun u => u.params = s.params)
    (fun _ _ hstep hu => (step_params hstep).trans hu) h rfl

/-- Settles O56: the first CURRENT and every word between write nothing, so the last CURRENT executes
on the registers of the first. -/
theorem currentRepeatsAcrossReads : Obligations.CurrentRepeatsAcrossReads := by
  intro s q hq
  obtain ⟨x, hx⟩ := exec_pureRead_effect (i := .current) rfl s.params s.gen
  have hcurrent := executeWord_effect_of_command (decode_encode .current) hx
  obtain ⟨rs, hlen, hrs⟩ := answers_append_of_reads (s := s) hq [encode .current]
  refine ⟨x, rs, hlen, ?_⟩
  rw [answers_cons hcurrent, hrs, answers_singleton hcurrent]
  rfl

/-- Settles O41: STATUS of the unseeded core is 0, and NEXT needs SEEDED. -/
theorem resetStateIsUnseededAndEmpty : Obligations.ResetStateIsUnseededAndEmpty := by
  refine ⟨reset_gen, reset_accepted, reset_responses, reset_resetLine, ?_, ?_⟩
  · have hstatus := executeWord_effect_of_command (w := 0x090000000000000000#72) rfl
      (exec_rdstatus_effect State.reset.params State.reset.gen)
    rw [answers_singleton hstatus, reset_gen, statusRegister_unseeded]
  · exact answers_singleton (executeWord_effect_of_command (w := 0x040000000000000000#72)
      (i := .next) rfl (exec_needsSeeded_effect rfl State.reset.params))

/-- Settles O46: of the commands that do not seed, NEXT adds one to INDEX and the others write no
register. -/
theorem onlyTheListedCommandsWriteRegisters : Obligations.OnlyTheListedCommandsWriteRegisters := by
  intro i s index offset hg hs
  obtain rfl | hr := eq_next_or_pureRead hs
  · exact ⟨_, exec_next_effect s.params index offset s rfl hg⟩
  · obtain ⟨x, hx⟩ := exec_pureRead_effect hr s.params (.seeded index offset)
    have hne : i ≠ .next := by
      rintro rfl
      cases hr
    rw [if_neg hne]
    exact ⟨x, hx s rfl hg⟩

/-- Settles O49: the bits of STATUS, one by one. -/
theorem statusIsSeededInBitZero : Obligations.StatusIsSeededInBitZero := by
  intro s
  refine ⟨statusRegister s.gen, exec_rdstatus_effect s.params s.gen s rfl rfl, ?_, fun k hk => ?_⟩
  · rw [getLsbD_statusRegister, ← seededFlag_iff]
    simp
  · rw [getLsbD_statusRegister, decide_eq_false (Nat.ne_of_gt hk), Bool.false_and]

end Sys2Proof.Machine
end

section
/-! The statements of spec/20_memory.md about the order of words and responses and about repeated
commands. -/

namespace Sys2Proof.Machine

/-- With reset released a presented word joins the port behind those waiting (R186). -/
theorem acceptCommand_of_released {s : State} (hl : s.resetLine = false) (w : CommandWord) :
    acceptCommand w s = { s with accepted := s.accepted ++ [w] } := by
  simp [acceptCommand, hl]

theorem takeResponse_of_cons {s : State} {x : Response} {rs : List Response}
    (h : s.responses = x :: rs) : takeResponse s = { s with responses := rs } := by
  simp [takeResponse, h]

/-- A seeding command writes a generator that does not depend on the one it replaces (R45). -/
theorem exec_seeds_effect {i : Instr} (hs : seeds i = true) (p : Params) :
    ∃ g', ∀ g, Effect (exec i) p g g' ⟨.ok, 0#32⟩ := by
  cases i with
  | construct a b | reseed a b =>
    exact ⟨.seeded (derive a p.shiftIndex) (derive b p.shiftOffset), fun _ s hp _ => by
      subst hp
      rfl⟩
  | restore index offset => exact ⟨.seeded index offset, fun _ _ _ _ => rfl⟩
  | permute | current | next | scramble | rdindex | rdoffset | rdstatus => cases hs

/-- Settles O34: on either schedule the core moves, takes the oldest word and executes what it
decodes to. -/
theorem stepRunsTheDecodedCommand : Obligations.StepRunsTheDecodedCommand := by
  intro s w rest i hl ha hw
  refine ⟨fun ht => ?_, fun ts ht => ?_⟩
  · calc step s
      _ = coreMove s := nextMove_empty ht
      _ = executeWord w { s with accepted := rest } := coreMove_command hl ha
      _ = exec i { s with accepted := rest } := executeWord_command hw _
  · calc step s
      _ = coreMove { s with turns := ts } := nextMove_core ht
      _ = executeWord w { s with accepted := rest, turns := ts } := coreMove_command hl ha
      _ = exec i { s with accepted := rest, turns := ts } := executeWord_command hw _

/-- Settles O38: the host's move is the scheduled one, and each of the two moves writes one port. -/
theorem portsAreFirstInFirstOut : Obligations.PortsAreFirstInFirstOut := by
  intro s ts
  refine ⟨fun w hl ht => ?_, fun x rs hr ht => ?_⟩
  · have haccept := acceptCommand_of_released (s := { s with turns := ts }) hl w
    exact (nextMove_host ht).trans (congrArg _ haccept)
  · have htake := takeResponse_of_cons (s := { s with turns := ts }) hr
    exact (nextMove_host ht).trans (congrArg _ htake)

/-- Settles O47: a reading command leaves the triple and the generator, on which alone its response
depends. -/
theorem readingCommandsWriteNoState : Obligations.ReadingCommandsWriteNoState := by
  intro i s hr
  obtain ⟨x, hx⟩ := exec_pureRead_effect hr s.params s.gen
  exact ⟨x, hx s rfl rfl, hx { s with responses := s.responses ++ [x] } rfl rfl⟩

/-- Settles O48: the generator written depends on the operands and the triple alone. -/
theorem seedingTwiceIsSeedingOnce : Obligations.SeedingTwiceIsSeedingOnce := by
  intro i s hs
  obtain ⟨g, hg⟩ := exec_seeds_effect hs s.params
  exact ⟨g, hg s.gen s rfl rfl, fun t ht => hg t.gen t ht rfl⟩

end Sys2Proof.Machine
end

section
/-! The layout of the command word, of the response word and of what decoding reads from a word
(spec/30_encoding.md R60 to R66). -/

namespace Sys2Proof

/-- The number of two fields side by side. -/
theorem toNat_append_eq_add {m n : Nat} (x : BitVec m) (y : BitVec n) :
    (x ++ y).toNat = x.toNat * 2 ^ n + y.toNat := by
  rw [BitVec.toNat_append, ← Nat.shiftLeft_add_eq_or_of_lt y.isLt, Nat.shiftLeft_eq]

/-- The packed word as a number (R60). -/
theorem toNat_packCommand (op : BitVec 8) (a b : Word) :
    (packCommand op a b).toNat = op.toNat * 2 ^ 64 + a.toNat * 2 ^ 32 + b.toNat := by
  rw [packCommand, toNat_append_eq_add, toNat_append_eq_add]
  omega

theorem toNat_commandOp (w : CommandWord) : (commandOp w).toNat = w.toNat / 2 ^ 64 := by
  rw [commandOp, BitVec.extractLsb'_toNat, Nat.shiftRight_eq_div_pow]
  omega

theorem toNat_commandA (w : CommandWord) : (commandA w).toNat = w.toNat / 2 ^ 32 % 2 ^ 32 := by
  rw [commandA, BitVec.extractLsb'_toNat, Nat.shiftRight_eq_div_pow]

theorem toNat_commandB (w : CommandWord) : (commandB w).toNat = w.toNat % 2 ^ 32 := by
  rw [commandB, BitVec.extractLsb'_toNat, Nat.shiftRight_zero]

/-- Every word is its three fields. -/
@[simp] theorem packCommand_fields (w : CommandWord) :
    packCommand (commandOp w) (commandA w) (commandB w) = w := by
  apply BitVec.eq_of_toNat_eq
  rw [toNat_packCommand, toNat_commandOp, toNat_commandA, toNat_commandB]
  omega

theorem eq_packCommand_of_op {w : CommandWord} {op : BitVec 8} (h : commandOp w = op) :
    w = packCommand op (commandA w) (commandB w) := by
  rw [← h, packCommand_fields]

/-! Decoding a packed word, one equation per row of R62. -/

@[simp] theorem decode_packCommand_permute (a b : Word) :
    decode (packCommand 0x01#8 a b) = .ok (.permute a) := by simp [decode]

@[simp] theorem decode_packCommand_construct (a b : Word) :
    decode (packCommand 0x02#8 a b) = .ok (.construct a b) := by simp [decode]

@[simp] theorem decode_packCommand_current (a b : Word) :
    decode (packCommand 0x03#8 a b) = .ok .current := by simp [decode]

@[simp] theorem decode_packCommand_next (a b : Word) :
    decode (packCommand 0x04#8 a b) = .ok .next := by simp [decode]

@[simp] theorem decode_packCommand_reseed (a b : Word) :
    decode (packCommand 0x05#8 a b) = .ok (.reseed a b) := by simp [decode]

@[simp] theorem decode_packCommand_scramble (a b : Word) :
    decode (packCommand 0x06#8 a b) = .ok (.scramble a) := by simp [decode]

@[simp] theorem decode_packCommand_rdindex (a b : Word) :
    decode (packCommand 0x07#8 a b) = .ok .rdindex := by simp [decode]

@[simp] theorem decode_packCommand_rdoffset (a b : Word) :
    decode (packCommand 0x08#8 a b) = .ok .rdoffset := by simp [decode]

@[simp] theorem decode_packCommand_rdstatus (a b : Word) :
    decode (packCommand 0x09#8 a b) = .ok .rdstatus := by simp [decode]

@[simp] theorem decode_packCommand_restore (a b : Word) :
    decode (packCommand 0x0A#8 a b) = .ok (.restore a b) := by simp [decode]

/-- The rejected words and their error (R65, R66). -/
theorem decode_eq_error_iff {w : CommandWord} {e : DecodeError} :
    decode w = .error e ↔
      ((commandOp w).toNat = 0x00 ∨ 0x0B ≤ (commandOp w).toNat) ∧ .reservedOp (commandOp w) = e := by
  unfold decode
  split
  case h_11 =>
    have hreserved : (commandOp w).toNat = 0x00 ∨ 0x0B ≤ (commandOp w).toNat := by
      simp only [imp_false] at *
      omega
    rw [Except.error.injEq, and_iff_right hreserved]
  all_goals simp [*]

/-- The words that are commands (R65). -/
theorem exists_decode_eq_ok_iff {w : CommandWord} :
    (∃ i, decode w = .ok i) ↔ 0x01 ≤ (commandOp w).toNat ∧ (commandOp w).toNat ≤ 0x0A := by
  constructor
  · rintro ⟨i, hi⟩
    by_contra hop
    have hreserved : (commandOp w).toNat = 0x00 ∨ 0x0B ≤ (commandOp w).toNat := by omega
    cases hi.symm.trans (decode_eq_error_iff.mpr ⟨hreserved, rfl⟩)
  · intro hop
    cases hd : decode w with
    | ok i => exact ⟨i, rfl⟩
    | error e =>
      obtain ⟨hreserved, -⟩ := decode_eq_error_iff.mp hd
      omega

/-- The commands that use field A (R62). -/
def usesA (i : Instr) : Bool :=
  match i with
  | .permute _ | .construct _ _ | .reseed _ _ | .scramble _ | .restore _ _ => true
  | .current | .next | .rdindex | .rdoffset | .rdstatus => false

/-- The commands that use field B (R62). -/
def usesB (i : Instr) : Bool :=
  match i with
  | .construct _ _ | .reseed _ _ | .restore _ _ => true
  | .permute _ | .current | .next | .scramble _ | .rdindex | .rdoffset | .rdstatus => false

theorem commandOp_eq_of_toNat {w : CommandWord} {n : Nat} (h : (commandOp w).toNat = n) :
    commandOp w = BitVec.ofNat 8 n := by
  rw [← h, BitVec.ofNat_toNat, BitVec.setWidth_eq]

/-- Encoding what a word decodes to gives the word back with its unused fields cleared (R62, R64). -/
theorem encode_of_decode {w : CommandWord} {i : Instr} (h : decode w = .ok i) :
    encode i = packCommand (commandOp w) (if usesA i then commandA w else 0#32)
      (if usesB i then commandB w else 0#32) := by
  unfold decode at h
  split at h
  case h_11 => cases h
  all_goals
    rename_i hop
    cases h
    rw [commandOp_eq_of_toNat hop]
    rfl

/-- A word whose bits under the mask are `OP * 2^64` has that OP (R62). -/
theorem commandOp_of_match {w : CommandWord} {op : BitVec 8}
    (h : w &&& 0xFF0000000000000000#72 = packCommand op 0#32 0#32) : commandOp w = op := by
  have hmask : commandOp (w &&& 0xFF0000000000000000#72) = commandOp w &&& 0xFF#8 :=
    BitVec.extractLsb'_and
  calc commandOp w
    _ = commandOp w &&& 0xFF#8 := (BitVec.and_allOnes (x := commandOp w)).symm
    _ = op := by rw [← hmask, h, commandOp_packCommand]

theorem decode_of_match {w : CommandWord} {op : BitVec 8} {r : Except DecodeError Instr}
    (h : w &&& 0xFF0000000000000000#72 = packCommand op 0#32 0#32)
    (hr : decode (packCommand op (commandA w) (commandB w)) = r) : decode w = r :=
  (congrArg decode (eq_packCommand_of_op (commandOp_of_match h))).trans hr

end Sys2Proof

namespace Sys2Proof.Machine

/-- The response word as a number (R61). -/
theorem toNat_responseWord (x : Response) :
    (responseWord x).toNat = (statusCode x.st).toNat * 2 ^ 32 + x.r.toNat :=
  toNat_append_eq_add _ _

/-- What a word does is what it decodes to (R154). -/
theorem executeWord_congr {w w' : CommandWord} (h : decode w = decode w') (s : State) :
    executeWord w s = executeWord w' s := by
  rw [executeWord, executeWord, h]

/-- An error response carries R = 0 (R68). -/
theorem exec_effect_sound {i : Instr} {p : Params} {g g' : Generator} {x : Response}
    (h : Effect (exec i) p g g' x) : x.sound := by
  have hx := h ⟨p, g, [], [], false, []⟩ rfl rfl
  cases i with
  | permute | construct | reseed | rdstatus | restore =>
    cases hx
    exact .inl rfl
  | current | next | scramble | rdindex | rdoffset =>
    cases g with
    | unseeded =>
      cases hx
      exact .inr rfl
    | seeded =>
      cases hx
      exact .inl rfl

theorem executeWord_effect_sound {w : CommandWord} {p : Params} {g g' : Generator} {x : Response}
    (h : Effect (executeWord w) p g g' x) : x.sound := by
  cases hd : decode w with
  | ok i => exact exec_effect_sound fun s hp hg => (executeWord_command hd s).symm.trans (h s hp hg)
  | error e =>
    cases (executeWord_reserved hd _).symm.trans (h ⟨p, g, [], [], false, []⟩ rfl rfl)
    exact .inr rfl

/-- The OPs of CONSTRUCT, RESEED and RESTORE are those of seeding commands (R22). -/
theorem decode_seeds_of_op {w : CommandWord}
    (h : commandOp w = 0x02#8 ∨ commandOp w = 0x05#8 ∨ commandOp w = 0x0A#8) :
    ∃ i, decode w = .ok i ∧ seeds i = true := by
  obtain h | h | h := h <;> rw [eq_packCommand_of_op h]
  · exact ⟨_, decode_packCommand_construct _ _, rfl⟩
  · exact ⟨_, decode_packCommand_reseed _ _, rfl⟩
  · exact ⟨_, decode_packCommand_restore _ _, rfl⟩

end Sys2Proof.Machine
end

section
/-! What the assembler answers to one written line (spec/30_encoding.md R69). -/

namespace Sys2Proof.Machine

/-- A line is well formed by its mnemonic, the number of its operands and their range. -/
theorem wellFormed_iff {m : List Char} {ns : List Nat} :
    CommandLine.wellFormed ⟨m, ns⟩ = true ↔
      ∃ op, mnemonicTable.lookup m = some (op, ns.length) ∧ ∀ n ∈ ns, n < 2 ^ 32 := by
  unfold CommandLine.wellFormed
  cases hm : mnemonicTable.lookup m with
  | none => simp
  | some row =>
    obtain ⟨op, count⟩ := row
    simp only [Bool.and_eq_true, beq_iff_eq, List.all_eq_true, decide_eq_true_eq, Option.some.injEq,
      Prod.mk.injEq]
    exact ⟨fun ⟨hcount, hns⟩ => ⟨op, ⟨rfl, hcount.symm⟩, hns⟩,
      fun ⟨_, ⟨_, hcount⟩, hns⟩ => ⟨hcount.symm, hns⟩⟩

theorem assembleLine_eq_none {m : List Char} {ns : List Nat}
    (h : ∀ op, mnemonicTable.lookup m = some (op, ns.length) → ∃ n ∈ ns, 2 ^ 32 ≤ n) :
    assembleLine ⟨m, ns⟩ = none := by
  refine if_neg fun hwf => ?_
  obtain ⟨op, hm, hns⟩ := wellFormed_iff.mp hwf
  obtain ⟨n, hn, hbig⟩ := h op hm
  exact absurd (hns n hn) (Nat.not_lt.mpr hbig)

/-- A line with another number of operands than its mnemonic takes is refused. -/
theorem assembleLine_of_wrong_count {m : List Char} {ns : List Nat} {op : BitVec 8} {count : Nat}
    (hm : mnemonicTable.lookup m = some (op, count)) (hcount : ns.length ≠ count) :
    assembleLine ⟨m, ns⟩ = none := by
  refine assembleLine_eq_none fun op' hm' => absurd ?_ hcount
  cases hm.symm.trans hm'
  rfl

theorem assembleLine_of_wellFormed {m : List Char} {ns : List Nat} {op : BitVec 8}
    (hm : mnemonicTable.lookup m = some (op, ns.length)) (hns : ∀ n ∈ ns, n < 2 ^ 32) :
    assembleLine ⟨m, ns⟩ = some (packCommand op (BitVec.ofNat 32 (ns.getD 0 0))
      (BitVec.ofNat 32 (ns.getD 1 0))) := by
  rw [assembleLine, if_pos (wellFormed_iff.mpr ⟨op, hm, hns⟩)]
  simp only [hm]

theorem assembleLine_no_operand {m : List Char} {op : BitVec 8}
    (hm : mnemonicTable.lookup m = some (op, 0)) :
    assembleLine ⟨m, []⟩ = some (packCommand op 0#32 0#32) :=
  assembleLine_of_wellFormed hm (by simp)

theorem assembleLine_one_operand {m : List Char} {op : BitVec 8}
    (hm : mnemonicTable.lookup m = some (op, 1)) (a : Word) :
    assembleLine ⟨m, [a.toNat]⟩ = some (packCommand op a 0#32) := by
  rw [assembleLine_of_wellFormed hm (by simpa using a.isLt)]
  simp

theorem assembleLine_two_operands {m : List Char} {op : BitVec 8}
    (hm : mnemonicTable.lookup m = some (op, 2)) (a b : Word) :
    assembleLine ⟨m, [a.toNat, b.toNat]⟩ = some (packCommand op a b) := by
  rw [assembleLine_of_wellFormed hm (by simpa using ⟨a.isLt, b.isLt⟩)]
  simp

/-- A mnemonic outside the table is looked up in vain (R62). -/
theorem lookup_mnemonicTable_eq_none {m : List Char} (h : m ∉ mnemonicTable.map Prod.fst) :
    mnemonicTable.lookup m = none := by
  rw [List.lookup_eq_none_iff]
  intro row hrow
  simpa using fun heq : m = row.1 => h (heq ▸ List.mem_map_of_mem hrow)

end Sys2Proof.Machine
end

section
/-! The statements of spec/30_encoding.md. -/

namespace Sys2Proof.Machine

/-- Settles O4: encoding what a word decodes to clears its unused fields and keeps the others. -/
theorem decodeAndEncodeAgree : Obligations.DecodeAndEncodeAgree := by
  refine ⟨decode_encode, fun w i h => ?_, fun w i h => ?_⟩
  · rw [encode_of_decode h, commandOp_packCommand]
  · have hi := encode_of_decode h
    cases i with
    | construct | reseed | restore => exact hi.trans (packCommand_fields w)
    | permute | scramble | current | next | rdindex | rdoffset | rdstatus =>
      rw [hi]
      exact ⟨commandA_packCommand _ _ _, commandB_packCommand _ _ _⟩

/-- Settles O5: `match` under the mask gives OP, and OP gives the row. -/
theorem decodeFollowsMatchAndMask : Obligations.DecodeFollowsMatchAndMask := by
  intro w
  exact ⟨fun h => decode_of_match (op := 0x01#8) h (decode_packCommand_permute _ _),
    fun h => decode_of_match (op := 0x02#8) h (decode_packCommand_construct _ _),
    fun h => decode_of_match (op := 0x03#8) h (decode_packCommand_current _ _),
    fun h => decode_of_match (op := 0x04#8) h (decode_packCommand_next _ _),
    fun h => decode_of_match (op := 0x05#8) h (decode_packCommand_reseed _ _),
    fun h => decode_of_match (op := 0x06#8) h (decode_packCommand_scramble _ _),
    fun h => decode_of_match (op := 0x07#8) h (decode_packCommand_rdindex _ _),
    fun h => decode_of_match (op := 0x08#8) h (decode_packCommand_rdoffset _ _),
    fun h => decode_of_match (op := 0x09#8) h (decode_packCommand_rdstatus _ _),
    fun h => decode_of_match (op := 0x0A#8) h (decode_packCommand_restore _ _)⟩

/-- Settles O6: a word decodes to a command exactly when its OP is not reserved. -/
theorem exactlyReservedOpsAreRejected : Obligations.ExactlyReservedOpsAreRejected := by
  intro w
  rw [← toNat_commandOp]
  exact ⟨exists_decode_eq_ok_iff, fun h => decode_eq_error_iff.mpr ⟨h, rfl⟩⟩

/-- Settles O8: the table gives each mnemonic its OP and its number of operands; no other line is well
formed. -/
theorem assembledLinesAreEncodedCommands : Obligations.AssembledLinesAreEncodedCommands := by
  refine ⟨fun a b => ⟨assembleLine_one_operand rfl a, assembleLine_two_operands rfl a b,
    assembleLine_no_operand rfl, assembleLine_no_operand rfl, assembleLine_two_operands rfl a b,
    assembleLine_one_operand rfl a, assembleLine_no_operand rfl, assembleLine_no_operand rfl,
    assembleLine_no_operand rfl, assembleLine_two_operands rfl a b⟩,
    fun m ns h => assembleLine_eq_none fun _ _ => h, fun m ns => ⟨?_, ?_, ?_, fun hm => ?_⟩⟩
  · rintro (rfl | rfl) hcount <;> exact assembleLine_of_wrong_count rfl hcount
  · rintro (rfl | rfl | rfl) hcount <;> exact assembleLine_of_wrong_count rfl hcount
  · rintro (rfl | rfl | rfl | rfl | rfl) hns <;>
      exact assembleLine_of_wrong_count rfl (mt List.length_eq_zero_iff.mp hns)
  · refine assembleLine_eq_none fun op hop => ?_
    cases (lookup_mnemonicTable_eq_none hm).symm.trans hop

/-- Settles O32: the three seeding commands answer OK with 0, and no error response carries a result. -/
theorem errorsAndResultlessCommandsAnswerZero :
    Obligations.ErrorsAndResultlessCommandsAnswerZero := by
  intro w s
  by_cases hop : commandOp w = 0x02#8 ∨ commandOp w = 0x05#8 ∨ commandOp w = 0x0A#8
  · obtain ⟨i, hd, hs⟩ := decode_seeds_of_op hop
    obtain ⟨g, hi⟩ := exec_seeds_effect hs s.params
    exact ⟨g, ⟨.ok, 0#32⟩, executeWord_effect_of_command hd (hi s.gen) s rfl rfl,
      fun _ => rfl, fun _ => rfl⟩
  · obtain ⟨g, x, hw⟩ := executeWord_effect w s.params s.gen
    exact ⟨g, x, hw s rfl rfl, (executeWord_effect_sound hw).resolve_left, fun h => absurd h hop⟩

/-- Settles O1: the packed word and its fields as numbers. -/
theorem commandWordIsItsThreeFields : Obligations.CommandWordIsItsThreeFields :=
  ⟨toNat_packCommand, fun w =>
    ⟨toNat_commandOp w, toNat_commandA w, toNat_commandB w, packCommand_fields w⟩⟩

/-- Settles O2: the response word as a number, with each status code. -/
theorem responseWordIsStatusAboveResult : Obligations.ResponseWordIsStatusAboveResult := by
  intro r
  refine ⟨?_, toNat_responseWord _, toNat_responseWord _⟩
  exact (toNat_responseWord _).trans (by simp [statusCode])

/-- Settles O7: words that differ in unused fields decode alike. -/
theorem unusedFieldsAreIgnored : Obligations.UnusedFieldsAreIgnored := by
  refine ⟨fun s op a b b' hop => executeWord_congr ?_ s,
    fun s op a a' b b' hop => executeWord_congr ?_ s, fun _ => rfl, fun _ => rfl, rfl, rfl, rfl, rfl,
    rfl⟩
  · obtain rfl | rfl := hop <;> simp
  · obtain rfl | rfl | rfl | rfl | rfl := hop <;> simp

end Sys2Proof.Machine
end

section
/-! The square remainder: its range, its two roots, and that no two of its values add up to PRIME
(spec/40_permute.md R93, R94, R96). -/

namespace Sys2Proof.Machine

theorem squareRemainder_lt_prime (x : Word) : squareRemainder x < 4294967291 :=
  Nat.mod_lt _ (by decide)

/-- PRIME is prime, so it divides the square of no positive number below it. -/
theorem squareRemainder_pos {x : Word} (hpos : 0 < x.toNat) (hlt : x.toNat < 4294967291) :
    0 < squareRemainder x := by
  refine Nat.pos_of_ne_zero fun hzero => ?_
  have hdvd : Config.prime ∣ x.toNat :=
    or_self_iff.mp (prime_config_prime.dvd_mul.mp (Nat.dvd_of_mod_eq_zero hzero))
  exact Nat.not_dvd_of_pos_of_lt hpos hlt hdvd

theorem cast_squareRemainder (x : Word) :
    (squareRemainder x : ZMod Config.prime) = (x.toNat : ZMod Config.prime) ^ 2 := by
  rw [squareRemainder, ZMod.natCast_mod, Nat.cast_mul, sq]

/-- A square has two roots modulo PRIME, each the negative of the other. -/
theorem eq_or_add_eq_prime_of_squareRemainder_eq {x y : Word} (hx : x.toNat < 4294967291)
    (hy : y.toNat < 4294967291) (h : squareRemainder x = squareRemainder y) :
    x.toNat = y.toNat ∨ x.toNat + y.toNat = 4294967291 := by
  have := Fact.mk prime_config_prime
  have hsq : (x.toNat : ZMod Config.prime) ^ 2 = (y.toNat : ZMod Config.prime) ^ 2 := by
    rw [← cast_squareRemainder, ← cast_squareRemainder, h]
  obtain heq | hneg := sq_eq_sq_iff_eq_or_eq_neg.mp hsq
  · rw [ZMod.natCast_eq_natCast_iff', Config.prime] at heq
    omega
  · rw [eq_neg_iff_add_eq_zero, ← Nat.cast_add, ZMod.natCast_eq_zero_iff, Config.prime] at hneg
    omega

/-- PRIME leaves remainder 3 on division by 4, so the negative of a square other than 0 is no square
modulo PRIME (R96). -/
theorem squareRemainder_add_ne_prime (x y : Word) :
    squareRemainder x + squareRemainder y ≠ 4294967291 := by
  intro hsum
  have := Fact.mk prime_config_prime
  have hneg : (x.toNat : ZMod Config.prime) ^ 2 = -(y.toNat : ZMod Config.prime) ^ 2 := by
    rw [eq_neg_iff_add_eq_zero, ← cast_squareRemainder, ← cast_squareRemainder, ← Nat.cast_add, hsum]
    exact ZMod.natCast_self Config.prime
  have hy : (y.toNat : ZMod Config.prime) ≠ 0 := by
    intro hzero
    have hdvd : Config.prime ∣ squareRemainder y := by
      rw [← ZMod.natCast_eq_zero_iff, cast_squareRemainder, hzero, zero_pow two_ne_zero]
    have hpos : 0 < squareRemainder y := by
      have := squareRemainder_lt_prime x
      omega
    exact Nat.not_dvd_of_pos_of_lt hpos (squareRemainder_lt_prime y) hdvd
  exact ZMod.mod_four_ne_three_of_sq_eq_neg_sq' hy hneg rfl

/-- The square of an in-field input is at most `(PRIME - 1)^2` (R93). -/
theorem square_le_of_lt_prime {x : Word} (h : x.toNat < 4294967291) :
    x.toNat * x.toNat ≤ 18446744022169944100 :=
  Nat.mul_le_mul (Nat.le_of_lt_succ h) (Nat.le_of_lt_succ h)

theorem square_lt_two_pow_64 (x : Word) : x.toNat * x.toNat < 2 ^ 64 :=
  lt_of_lt_of_eq (Nat.mul_lt_mul'' x.isLt x.isLt) (by decide)

/-- 64 bits hold the square of every word (R93). -/
theorem toNat_setWidth_square (x : Word) :
    (x.setWidth 64 * x.setWidth 64).toNat = x.toNat * x.toNat := by
  rw [BitVec.toNat_mul, BitVec.toNat_setWidth_of_le (by decide),
    Nat.mod_eq_of_lt (square_lt_two_pow_64 x)]

theorem toNat_setWidth_square_umod (x : Word) :
    ((x.setWidth 64 * x.setWidth 64) % 4294967291#64).toNat = squareRemainder x := by
  rw [BitVec.toNat_umod, toNat_setWidth_square]
  rfl

end Sys2Proof.Machine
end

section
/-! What `permute` does on each of its three branches, and that no two inputs share a value
(spec/40_permute.md R91, R92, R94, R96). -/

namespace Sys2Proof.Machine

theorem permute_of_prime_le {x : Word} (h : 4294967291 ≤ x.toNat) : permute x = x :=
  if_pos h

theorem toNat_permute_of_le_half {x : Word} (h : x.toNat ≤ 2147483645) :
    (permute x).toNat = squareRemainder x := by
  have hlt := squareRemainder_lt_prime x
  have hfield : ¬ 4294967291 ≤ x.toNat := by omega
  rw [permute, Config.prime, Config.primeHalf, if_neg hfield, if_pos h, BitVec.toNat_ofNat]
  omega

theorem toNat_permute_of_half_lt {x : Word} (hhalf : 2147483645 < x.toNat)
    (hlt : x.toNat < 4294967291) : (permute x).toNat = 4294967291 - squareRemainder x := by
  rw [permute, Config.prime, Config.primeHalf, if_neg (Nat.not_le.mpr hlt),
    if_neg (Nat.not_le.mpr hhalf), BitVec.toNat_ofNat]
  omega

/-- The subtraction of the last branch is exact (R94). -/
theorem toNat_permute_add_squareRemainder {x : Word} (hhalf : 2147483645 < x.toNat)
    (hlt : x.toNat < 4294967291) : (permute x).toNat + squareRemainder x = 4294967291 := by
  rw [toNat_permute_of_half_lt hhalf hlt, Nat.sub_add_cancel (squareRemainder_lt_prime x).le]

/-- `permute` keeps the field and what lies outside it apart (R94). -/
theorem toNat_permute_lt_prime_iff (x : Word) :
    (permute x).toNat < 4294967291 ↔ x.toNat < 4294967291 := by
  obtain hlt | hout := Nat.lt_or_ge x.toNat 4294967291
  · rw [iff_true_right hlt]
    obtain hhalf | hhalf := le_or_gt x.toNat 2147483645
    · rw [toNat_permute_of_le_half hhalf]
      exact squareRemainder_lt_prime x
    · have hpos := squareRemainder_pos (Nat.zero_lt_of_lt hhalf) hlt
      have hsum := toNat_permute_add_squareRemainder hhalf hlt
      omega
  · rw [permute_of_prime_le hout]

/-- A value of the first branch is a square, one of the second the negative of a square (R96). -/
theorem permute_ne_of_le_half_of_half_lt {x y : Word} (hx : x.toNat ≤ 2147483645)
    (hhalf : 2147483645 < y.toNat) (hy : y.toNat < 4294967291) : permute x ≠ permute y := by
  intro hxy
  have hsum := toNat_permute_add_squareRemainder hhalf hy
  rw [← hxy, toNat_permute_of_le_half hx] at hsum
  exact squareRemainder_add_ne_prime x y hsum

/-- The two branches in the field do not meet, and neither holds both roots of a square (R96). -/
theorem permute_injective : Function.Injective permute := by
  intro x y hxy
  have hfield : x.toNat < 4294967291 ↔ y.toNat < 4294967291 := by
    rw [← toNat_permute_lt_prime_iff, hxy, toNat_permute_lt_prime_iff]
  obtain hx | hout := Nat.lt_or_ge x.toNat 4294967291
  · have hy := hfield.mp hx
    have hroots := eq_or_add_eq_prime_of_squareRemainder_eq hx hy
    have hval := congrArg BitVec.toNat hxy
    apply BitVec.eq_of_toNat_eq
    obtain hxh | hxh := le_or_gt x.toNat 2147483645 <;>
      obtain hyh | hyh := le_or_gt y.toNat 2147483645
    · rw [toNat_permute_of_le_half hxh, toNat_permute_of_le_half hyh] at hval
      have := hroots hval
      omega
    · exact absurd hxy (permute_ne_of_le_half_of_half_lt hxh hyh hy)
    · exact absurd hxy.symm (permute_ne_of_le_half_of_half_lt hyh hxh hx)
    · have hsumx := toNat_permute_add_squareRemainder hxh hx
      have hsumy := toNat_permute_add_squareRemainder hyh hy
      have := hroots (by omega)
      omega
  · have hyout : 4294967291 ≤ y.toNat := by omega
    rwa [permute_of_prime_le hout, permute_of_prime_le hyout] at hxy

theorem permute_bijective : Function.Bijective permute :=
  Finite.injective_iff_bijective.mp permute_injective

end Sys2Proof.Machine
end

section
/-! The folds of the implementation note R99 of spec/40_permute.md. -/

namespace Sys2Proof.Machine

/-- `2^32` is PRIME and 5 (R99). -/
theorem foldOnce_mod_prime (v : Nat) : foldOnce v % 4294967291 = v % 4294967291 := by
  rw [foldOnce]
  omega

theorem foldOnce_lt_of_lt_two_pow_64 {v : Nat} (h : v < 2 ^ 64) : foldOnce v < 6 * 2 ^ 32 := by
  rw [foldOnce]
  omega

theorem foldOnce_lt_of_high_le_five {v : Nat} (h : v / 2 ^ 32 ≤ 5) : foldOnce v < 2 ^ 32 + 25 := by
  rw [foldOnce]
  omega

/-- One subtraction is enough below `2 * PRIME` (R99). -/
theorem foldedRemainder_eq_mod {x : Word}
    (h : foldOnce (foldOnce (x.toNat * x.toNat)) < 2 * 4294967291) :
    foldedRemainder x = foldOnce (foldOnce (x.toNat * x.toNat)) % 4294967291 := by
  rw [foldedRemainder]
  split <;> rw [Config.prime] at * <;> omega

end Sys2Proof.Machine
end

section
/-! The statements of spec/40_permute.md. -/

namespace Sys2Proof.Machine

/-- Settles O12: 64 bits hold the square of every word, so its remainder is that of the exact square. -/
theorem sixtyFourBitSquareIsExact : Obligations.SixtyFourBitSquareIsExact :=
  ⟨fun x h => ⟨toNat_setWidth_square x, square_le_of_lt_prime h, toNat_setWidth_square_umod x⟩,
    by decide⟩

/-- Settles O13: in the second branch neither the remainder nor the result is 0, and they add up to
PRIME. -/
theorem branchesStayInTheirRange : Obligations.BranchesStayInTheirRange := by
  intro x
  refine ⟨toNat_permute_lt_prime_iff x, toNat_permute_of_le_half, fun hlow hhigh => ?_⟩
  have hlt : x.toNat < 4294967291 := Nat.lt_succ_of_le hhigh
  have hpos := squareRemainder_pos (Nat.zero_lt_of_lt hlow) hlt
  have hrem := squareRemainder_lt_prime x
  have hsum := toNat_permute_add_squareRemainder hlow hlt
  omega

/-- Settles O14: `permute` is injective on a finite type. -/
theorem permuteIsABijection : Obligations.PermuteIsABijection :=
  fun x => permute_bijective.existsUnique x

/-- Settles O16: each fold keeps the remainder, and two of them leave a number below twice PRIME. -/
theorem foldedRemainderIsTheRemainder : Obligations.FoldedRemainderIsTheRemainder := by
  intro x
  have hfirst := foldOnce_lt_of_lt_two_pow_64 (square_lt_two_pow_64 x)
  have hhigh : foldOnce (x.toNat * x.toNat) / 2 ^ 32 ≤ 5 :=
    Nat.le_of_lt_succ (Nat.div_lt_of_lt_mul (by rwa [Nat.mul_comm]))
  have hsecond := foldOnce_lt_of_high_le_five hhigh
  have hmod : foldOnce (foldOnce (x.toNat * x.toNat)) % 4294967291
      = x.toNat * x.toNat % 4294967291 :=
    (foldOnce_mod_prime _).trans (foldOnce_mod_prime _)
  exact ⟨(foldedRemainder_eq_mod (hsecond.trans (by decide))).trans hmod, hfirst, hhigh,
    foldOnce_mod_prime _, hsecond, hmod⟩

/-- Settles O10: one lemma per branch. -/
theorem permuteIsItsDefinition : Obligations.PermuteIsItsDefinition := by
  intro x
  split
  case isTrue hout => rw [permute_of_prime_le hout]
  case isFalse hfield =>
    split
    case isTrue hhalf => exact toNat_permute_of_le_half hhalf
    case isFalse hhalf =>
      exact toNat_permute_of_half_lt (Nat.not_le.mp hhalf) (Nat.not_le.mp hfield)

/-- Settles O11: the five inputs are the words at or above PRIME. -/
theorem outOfFieldInputsMapToThemselves : Obligations.OutOfFieldInputsMapToThemselves :=
  fun _ h => permute_of_prime_le (BitVec.le_def.mp h)

/-- Settles O15: the model evaluates to each listed value. -/
theorem permuteHasTheListedValues : Obligations.PermuteHasTheListedValues := by
  unfold Obligations.PermuteHasTheListedValues
  decide

/-- Settles O20: decoding reads A whatever B is, and the arm answers `permute`. -/
theorem permuteCommandAnswersPermute : Obligations.PermuteCommandAnswersPermute :=
  ⟨decode_packCommand_permute, fun _ _ => rfl⟩

end Sys2Proof.Machine
end

section
/-! Seeding: `derive` in the seed, and CONSTRUCT and RESEED as RESTORE of the derived words
(spec/41_seed.md R110 to R113). -/

namespace Sys2Proof.Machine

/-- Each of the three stages of `derive` is a bijection (R96, R110). -/
theorem derive_bijective (shift : Word) : Function.Bijective fun seed => derive seed shift :=
  permute_bijective.comp ((AddGroup.addRight_bijective shift).comp permute_bijective)

theorem exec_construct_eq_exec_restore (a b : Word) (s : State) :
    exec (.construct a b) s
      = exec (.restore (derive a s.params.shiftIndex) (derive b s.params.shiftOffset)) s :=
  rfl

theorem exec_reseed_eq_exec_construct (a b : Word) (s : State) :
    exec (.reseed a b) s = exec (.construct a b) s :=
  rfl

/-- RESTORE of two pairs differs in the generator it writes (R143). -/
theorem exec_restore_inj {index offset index' offset' : Word} {s : State} :
    exec (.restore index offset) s = exec (.restore index' offset') s
      ↔ index = index' ∧ offset = offset' := by
  constructor
  · intro h
    cases h
    exact ⟨rfl, rfl⟩
  · rintro ⟨rfl, rfl⟩
    rfl

/-- RESEED's response and its registers do not depend on the generator it replaces (R112). -/
theorem executeWord_reseed_effect (a b : Word) (p : Params) (g : Generator) :
    Effect (executeWord (encode (.reseed a b))) p g
      (.seeded (derive a p.shiftIndex) (derive b p.shiftOffset)) ⟨.ok, 0#32⟩ := by
  intro s hp hg
  rw [executeWord_command (decode_encode _), exec_reseed_eq_exec_construct,
    ← executeWord_command (decode_encode _)]
  exact executeWord_construct_effect a b p g s hp hg

end Sys2Proof.Machine
end

section
/-! The statements of spec/41_seed.md. -/

namespace Sys2Proof.Machine

/-- Settles O17: addition of words is addition of their values modulo `2^32`, and every stage of
`derive` is a bijection. -/
theorem deriveIsItsStagesAndABijection : Obligations.DeriveIsItsStagesAndABijection := by
  refine ⟨fun seed shift => ?_, derive_bijective⟩
  have hwrap : permute seed + shift
      = BitVec.ofNat 32 (((permute seed).toNat + shift.toNat) % 2 ^ 32) :=
    BitVec.eq_of_toNat_eq (by simp)
  exact congrArg permute hwrap

/-- Settles O51: from one state RESEED and CONSTRUCT leave one generator and one response, and after
CONSTRUCT the state before it does not matter (R114). -/
theorem reseedRunsAsAFreshConstruct : Obligations.ReseedRunsAsAFreshConstruct := by
  intro s a b q
  obtain ⟨-, -, hconstruct⟩ := responsesDependOnRegistersAndTripleAlone
  calc answers s (encode (.reseed a b) :: q)
    _ = answers s (encode (.construct a b) :: q) := by
      rw [answers_cons (executeWord_reseed_effect a b s.params s.gen),
        answers_cons (executeWord_construct_effect a b s.params s.gen)]
    _ = answers { State.reset with params := s.params } (encode (.construct a b) :: q) :=
      hconstruct s _ a b q rfl

/-- Settles O59: CONSTRUCT is RESTORE of the derived words, and each word is derived from exactly one
seed. -/
theorem everySeedPairGivesItsOwnRegisters : Obligations.EverySeedPairGivesItsOwnRegisters := by
  intro s index offset
  obtain ⟨a, ha, ha_unique⟩ := (derive_bijective s.params.shiftIndex).existsUnique index
  obtain ⟨b, hb, hb_unique⟩ := (derive_bijective s.params.shiftOffset).existsUnique offset
  simp only [exec_construct_eq_exec_restore, exec_restore_inj]
  exact ⟨a, b, ⟨ha, hb⟩, fun a' b' ⟨ha', hb'⟩ => ⟨ha_unique a' ha', hb_unique b' hb'⟩⟩

/-- Settles O21: the arm seeds the core with the derived words, whatever its state. -/
theorem constructDerivesBothRegisters : Obligations.ConstructDerivesBothRegisters :=
  ⟨decode_packCommand_construct, fun _ _ _ => rfl⟩

/-- Settles O22: RESEED executes as CONSTRUCT of the same operands. -/
theorem reseedDerivesBothRegisters : Obligations.ReseedDerivesBothRegisters := by
  obtain ⟨-, hconstruct⟩ := constructDerivesBothRegisters
  exact ⟨decode_packCommand_reseed, fun a b s =>
    (exec_reseed_eq_exec_construct a b s).trans (hconstruct a b s)⟩

end Sys2Proof.Machine
end

section
/-! The generating commands on a seeded core: `F` in its source, and the sequence NEXT answers
(spec/42_generate.md R120 to R125). -/

namespace Sys2Proof.Machine

/-- Exclusive-or with a constant undoes itself. -/
theorem xor_const_bijective (c : Word) : Function.Bijective fun t : Word => t ^^^ c :=
  Function.Involutive.bijective fun t => by simp

/-- Each of the four stages of `F` is a bijection (R120, R121). -/
theorem compose_bijective (c off : Word) : Function.Bijective fun src => compose c src off :=
  permute_bijective.comp <| (xor_const_bijective c).comp <|
    (AddGroup.addRight_bijective off).comp permute_bijective

theorem compose_inj {c src src' off : Word} : compose c src off = compose c src' off ↔ src = src' :=
  (compose_bijective c off).injective.eq_iff

theorem permute_zero : permute 0#32 = 0#32 := by decide

/-- The first `permute` of `F` fixes 0 (R123). -/
theorem compose_zero (c off : Word) : compose c 0#32 off = permute (off ^^^ c) := by
  rw [compose, permute_zero, BitVec.zero_add]

/-- An effect that keeps the generator writes nothing but the response. -/
theorem Effect.eq_next_of_gen_kept {f : State → Host.Outcome State Fault Refusal} {g : Generator}
    {x : Response} {s : State} (h : Effect f s.params g g x) (hg : s.gen = g) :
    f s = .next { s with responses := s.responses ++ [x] } := by
  subst hg
  exact h s rfl rfl

/-- SCRAMBLE on a seeded core (R124). -/
theorem exec_scramble_effect (x : Word) (p : Params) (index offset : Word) :
    Effect (exec (.scramble x)) p (.seeded index offset) (.seeded index offset)
      ⟨.ok, compose p.xorConst x offset⟩ := by
  intro s hp hg
  subst hp
  rw [← hg]
  exact congrArg Host.Outcome.next (withRegisters_seeded hg _)

/-- On a seeded core CURRENT is SCRAMBLE of INDEX (R122, R124). -/
theorem exec_current_eq_exec_scramble {s : State} {index offset : Word}
    (hg : s.gen = .seeded index offset) : exec .current s = exec (.scramble index) s := by
  have hcurrent := withRegisters_seeded hg fun index offset =>
    respond .ok (compose s.params.xorConst index offset) s
  have hscramble := withRegisters_seeded hg fun _ offset =>
    respond .ok (compose s.params.xorConst index offset) s
  exact congrArg Host.Outcome.next (hcurrent.trans hscramble.symm)

/-- CURRENT on a seeded core (R122). -/
theorem exec_current_effect (p : Params) (index offset : Word) :
    Effect (exec .current) p (.seeded index offset) (.seeded index offset)
      ⟨.ok, compose p.xorConst index offset⟩ := by
  intro s hp hg
  rw [exec_current_eq_exec_scramble hg]
  exact exec_scramble_effect index p index offset s hp hg

/-- A run taken one command word at a time, from a generator that is named. -/
theorem answers_cons_of_gen {s : State} {w : CommandWord} {g g' : Generator} {x : Response}
    (hg : s.gen = g) (h : Effect (executeWord w) s.params g g' x) (q : List CommandWord) :
    answers s (w :: q) = (answers { s with gen := g' } q).map fun rs => x :: rs := by
  subst hg
  exact answers_cons h q

/-- The word answered by NEXT number `k`, the first being number 0, from registers `index` and
`offset` (R123, R125). -/
def nthNext (c index offset : Word) (k : Nat) : Word :=
  compose c (index + BitVec.ofNat 32 (k + 1)) offset

theorem nthNext_zero (c index offset : Word) :
    nthNext c index offset 0 = compose c (index + 1#32) offset :=
  rfl

theorem nthNext_succ (c index offset : Word) (k : Nat) :
    nthNext c index offset (k + 1) = nthNext c (index + 1#32) offset k := by
  rw [nthNext, nthNext, BitVec.ofNat_add (k + 1) 1, BitVec.add_assoc,
    BitVec.add_comm (BitVec.ofNat 32 (k + 1))]

/-- The sequence of NEXT repeats exactly as INDEX does, every `2^32` places (R125). -/
theorem nthNext_eq_iff {c index offset : Word} {j k : Nat} :
    nthNext c index offset j = nthNext c index offset k ↔ j % 2 ^ 32 = k % 2 ^ 32 := by
  rw [nthNext, nthNext, compose_inj, BitVec.add_right_inj, ← BitVec.toNat_inj, BitVec.toNat_ofNat,
    BitVec.toNat_ofNat]
  omega

/-- Every word is among the first `2^32` of the sequence: the one whose new INDEX `F` maps to it. -/
theorem exists_nthNext_eq (c index offset v : Word) : ∃ k < 2 ^ 32, nthNext c index offset k = v := by
  obtain ⟨src, hsrc⟩ := (compose_bijective c offset).surjective v
  refine ⟨(src - index - 1#32).toNat, (src - index - 1#32).isLt, ?_⟩
  have hindex : index + BitVec.ofNat 32 ((src - index - 1#32).toNat + 1) = src := by
    rw [BitVec.ofNat_add, BitVec.ofNat_toNat, BitVec.setWidth_eq, BitVec.sub_add_cancel,
      BitVec.add_comm, BitVec.sub_add_cancel]
  rw [nthNext, hindex]
  exact hsrc

/-- The answers to `n` NEXT, each an OK with the word of its place in the sequence (R123). -/
theorem answers_replicate_next {s : State} {index offset : Word} (hg : s.gen = .seeded index offset)
    (n : Nat) :
    answers s (List.replicate n 0x040000000000000000#72)
      = some ((List.range n).map fun k => ⟨.ok, nthNext s.params.xorConst index offset k⟩) := by
  induction n generalizing s index with
  | zero => exact answers_nil s
  | succ n ih =>
    have hnext := executeWord_effect_of_command (w := 0x040000000000000000#72) rfl
      (exec_next_effect s.params index offset)
    rw [List.replicate_succ, answers_cons_of_gen hg hnext, ih rfl, List.range_succ_eq_map]
    simp [nthNext_zero, nthNext_succ]

end Sys2Proof.Machine
end

section
/-! The statements of spec/42_generate.md. -/

namespace Sys2Proof.Machine

/-- Settles O19: every stage of `F` is a bijection. -/
theorem compositionIsABijection : Obligations.CompositionIsABijection :=
  fun off c => compose_bijective c off

/-- Settles O53: induction on the number of NEXT, each of which adds one to INDEX. -/
theorem kthNextAnswersIndexPlusK : Obligations.KthNextAnswersIndexPlusK :=
  fun _ _ _ n hg => answers_replicate_next hg n

/-- Settles O54: INDEX takes each of the `2^32` words once in a cycle, and `F` is a bijection. -/
theorem nextNeverRepeatsWithinAFullCycle : Obligations.NextNeverRepeatsWithinAFullCycle := by
  intro s index offset n hg
  refine ⟨_, answers_replicate_next hg n, by simp, by simp, fun hn => ?_, fun hn v => ?_,
    fun k hk => ?_⟩
  · rw [List.map_map]
    refine List.nodup_range.map_on fun j hj k hk hjk => ?_
    have hmod := nthNext_eq_iff.mp hjk
    rw [List.mem_range] at hj hk
    omega
  · obtain ⟨k, hk, hv⟩ := exists_nthNext_eq s.params.xorConst index offset v
    rw [List.map_map]
    exact List.mem_map.mpr ⟨k, List.mem_range.mpr (hk.trans_le hn), hv⟩
  · have hperiod : nthNext s.params.xorConst index offset (k + 2 ^ 32)
        = nthNext s.params.xorConst index offset k :=
      nthNext_eq_iff.mpr (Nat.add_mod_right k (2 ^ 32))
    have hk' : k < n := by omega
    rw [List.getElem?_map, List.getElem?_map, List.getElem?_range hk, List.getElem?_range hk',
      Option.map_some, Option.map_some, hperiod]

/-- Settles O55: CURRENT and SCRAMBLE of INDEX keep the registers, NEXT adds one to INDEX, and `F` is
injective. -/
theorem currentAgreesWithNextAndScramble : Obligations.CurrentAgreesWithNextAndScramble := by
  intro s index offset hg
  have hcurrent (i : Word) := executeWord_effect_of_command (decode_encode .current)
    (exec_current_effect s.params i offset)
  have hscramble := executeWord_effect_of_command (decode_encode (.scramble index))
    (exec_scramble_effect index s.params index offset)
  have hnext := executeWord_effect_of_command (decode_encode .next)
    (exec_next_effect s.params index offset)
  refine ⟨⟨.ok, compose s.params.xorConst index offset⟩,
    ⟨.ok, compose s.params.xorConst (index + 1#32) offset⟩, ?_, rfl, rfl, ?_⟩
  · rw [answers_cons_of_gen hg (hcurrent index), answers_cons_of_gen rfl hscramble,
      answers_cons_of_gen rfl hnext, answers_singleton (hcurrent _)]
    rfl
  · rw [Ne, compose_inj]
    simp

/-- Settles O18: the wrapped sum is the sum of words. -/
theorem composeIsItsFourStages : Obligations.ComposeIsItsFourStages := by
  intro c src off t ht
  have hsum : t = permute src + off := BitVec.eq_of_toNat_eq (ht.trans (BitVec.toNat_add _ _).symm)
  rw [hsum, compose]

/-- Settles O23: CURRENT's effect on a seeded core, and NotSeeded on an unseeded one. -/
theorem currentAnswersWithoutAdvancing : Obligations.CurrentAnswersWithoutAdvancing :=
  ⟨decode_packCommand_current,
    fun s index offset hg => (exec_current_effect s.params index offset).eq_next_of_gen_kept hg,
    fun s hg => (exec_needsSeeded_effect rfl s.params).eq_next_of_gen_kept hg⟩

/-- Settles O24: NEXT's effect on a seeded core, and NotSeeded on an unseeded one. -/
theorem nextIncrementsThenAnswers : Obligations.NextIncrementsThenAnswers :=
  ⟨decode_packCommand_next,
    fun s index offset hg => exec_next_effect s.params index offset s rfl hg,
    fun s hg => (exec_needsSeeded_effect rfl s.params).eq_next_of_gen_kept hg⟩

/-- Settles O25: SCRAMBLE's effect on a seeded core, and NotSeeded on an unseeded one. -/
theorem scrambleAnswersWithoutIndex : Obligations.ScrambleAnswersWithoutIndex :=
  ⟨decode_packCommand_scramble,
    fun x s index offset hg =>
      (exec_scramble_effect x s.params index offset).eq_next_of_gen_kept hg,
    fun _ s hg => (exec_needsSeeded_effect rfl s.params).eq_next_of_gen_kept hg⟩

/-- Settles O50: the new INDEX is 0, and `F` of it is one `permute`. -/
theorem indexWrapsSilently : Obligations.IndexWrapsSilently := by
  intro s offset hg
  have hwrap : 0xFFFFFFFF#32 + 1#32 = 0#32 := by decide
  have hnext := exec_next_effect s.params 0xFFFFFFFF#32 offset s rfl hg
  rwa [hwrap, compose_zero] at hnext

end Sys2Proof.Machine
end

section
/-! The state-access commands on a seeded core: reading one register, and RESTORE
(spec/43_state_access.md R140 to R143). -/

namespace Sys2Proof.Machine

/-- A command that answers a word computed from the registers writes neither of them. -/
theorem respond_registers_effect (r : Word → Word → Word) (p : Params) (index offset : Word) :
    Effect (fun s => .next (withRegisters s fun i o => respond .ok (r i o) s)) p
      (.seeded index offset) (.seeded index offset) ⟨.ok, r index offset⟩ := by
  intro s _ hg
  rw [← hg]
  exact congrArg Host.Outcome.next (withRegisters_seeded hg _)

/-- RDINDEX on a seeded core (R140). -/
theorem exec_rdindex_effect (p : Params) (index offset : Word) :
    Effect (exec .rdindex) p (.seeded index offset) (.seeded index offset) ⟨.ok, index⟩ :=
  respond_registers_effect (fun i _ => i) p index offset

/-- RDOFFSET on a seeded core (R141). -/
theorem exec_rdoffset_effect (p : Params) (index offset : Word) :
    Effect (exec .rdoffset) p (.seeded index offset) (.seeded index offset) ⟨.ok, offset⟩ :=
  respond_registers_effect (fun _ o => o) p index offset

/-- RESTORE's response and its registers do not depend on the generator it replaces (R143). -/
theorem exec_restore_effect (index offset : Word) (p : Params) (g : Generator) :
    Effect (exec (.restore index offset)) p g (.seeded index offset) ⟨.ok, 0#32⟩ :=
  fun _ _ _ => rfl

/-- After RESTORE of a state's registers, the triple being the same, every later word is answered as
in that state. -/
theorem answers_restore_cons {s t : State} {index offset : Word} (hg : s.gen = .seeded index offset)
    (hp : t.params = s.params) (q : List CommandWord) :
    answers t (encode (.restore index offset) :: q)
      = (answers s q).map fun rs => ⟨.ok, 0#32⟩ :: rs := by
  have hrestore := executeWord_effect_of_command (decode_encode (.restore index offset))
    (exec_restore_effect index offset t.params t.gen)
  have hlater := answers_congr (s := { t with gen := .seeded index offset }) hp hg.symm q
  rw [answers_cons hrestore, hlater]

end Sys2Proof.Machine
end

section
/-! The statements of spec/43_state_access.md. -/

namespace Sys2Proof.Machine

/-- Settles O58: RDINDEX leaves the registers for RDOFFSET to read, and RESTORE of them gives back the
generator, on which with the triple alone the later answers depend. -/
theorem savedRegistersRestoreTheRun : Obligations.SavedRegistersRestoreTheRun := by
  intro s t index offset q hg hp
  refine ⟨?_, answers_restore_cons hg hp q⟩
  have hindex := executeWord_effect_of_command (decode_encode .rdindex)
    (exec_rdindex_effect s.params index offset)
  have hoffset := executeWord_effect_of_command (decode_encode .rdoffset)
    (exec_rdoffset_effect s.params index offset)
  rw [answers_cons_of_gen hg hindex, answers_singleton hoffset, Option.map_some]

/-- Settles O26: RDINDEX's effect on a seeded core, and NotSeeded on an unseeded one. -/
theorem rdindexAnswersIndex : Obligations.RdindexAnswersIndex :=
  ⟨decode_packCommand_rdindex,
    fun s index offset hg => (exec_rdindex_effect s.params index offset).eq_next_of_gen_kept hg,
    fun s hg => (exec_needsSeeded_effect rfl s.params).eq_next_of_gen_kept hg⟩

/-- Settles O27: RDOFFSET's effect on a seeded core, and NotSeeded on an unseeded one. -/
theorem rdoffsetAnswersOffset : Obligations.RdoffsetAnswersOffset :=
  ⟨decode_packCommand_rdoffset,
    fun s index offset hg => (exec_rdoffset_effect s.params index offset).eq_next_of_gen_kept hg,
    fun s hg => (exec_needsSeeded_effect rfl s.params).eq_next_of_gen_kept hg⟩

/-- Settles O28: RDSTATUS answers STATUS, whose value is 1 on a seeded core and 0 on an unseeded one. -/
theorem rdstatusAnswersSeeded : Obligations.RdstatusAnswersSeeded := by
  refine ⟨decode_packCommand_rdstatus, fun s index offset hg => ?_, fun s hg => ?_⟩
  · have hstatus := exec_rdstatus_effect s.params (.seeded index offset)
    rw [statusRegister_seeded] at hstatus
    exact hstatus.eq_next_of_gen_kept hg
  · have hstatus := exec_rdstatus_effect s.params .unseeded
    rw [statusRegister_unseeded] at hstatus
    exact hstatus.eq_next_of_gen_kept hg

/-- Settles O29: RESTORE's effect in every state. -/
theorem restoreWritesBothRegisters : Obligations.RestoreWritesBothRegisters :=
  ⟨decode_packCommand_restore,
    fun a b s => exec_restore_effect a b s.params s.gen s rfl rfl⟩

end Sys2Proof.Machine
end

section
/-! The two exceptions: which words raise one, and that taking one writes nothing but its response
(spec/60_exceptions.md R151 to R156). -/

namespace Sys2Proof.Machine

/-- An illegal word writes nothing, seeded or not (R152). -/
theorem executeWord_reserved_effect {w : CommandWord} {e : DecodeError} (hd : decode w = .error e)
    (p : Params) (g : Generator) : Effect (executeWord w) p g g ⟨.illegalCommand, 0#32⟩ := by
  intro s _ hg
  subst hg
  exact executeWord_reserved hd s

/-- The commands that NotSeeded is for (R153). -/
theorem needsSeeded_iff {i : Instr} : needsSeeded i = true ↔
    i = .current ∨ i = .next ∨ (∃ x, i = .scramble x) ∨ i = .rdindex ∨ i = .rdoffset := by
  cases i <;> simp [needsSeeded]

/-- With SEEDED where it is needed, no command raises an exception (R151, R153). -/
theorem exec_effect_ok {i : Instr} {p : Params} {g g' : Generator} {x : Response}
    (h : Effect (exec i) p g g' x) (hs : needsSeeded i = true → g ≠ .unseeded) : x.st = .ok := by
  have hx := h ⟨p, g, [], [], false, []⟩ rfl rfl
  cases i with
  | permute | construct | reseed | rdstatus | restore =>
    cases hx
    rfl
  | current | next | scramble | rdindex | rdoffset =>
    cases g with
    | unseeded => exact absurd rfl (hs rfl)
    | seeded =>
      cases hx
      rfl

/-- No command clears SEEDED (R22, R153). -/
theorem exec_effect_keeps_seeded {i : Instr} {p : Params} {g g' : Generator} {x : Response}
    (h : Effect (exec i) p g g' x) (hg : g ≠ .unseeded) : g' ≠ .unseeded := by
  have hx := h ⟨p, g, [], [], false, []⟩ rfl rfl
  cases i with
  | construct | reseed | restore =>
    cases hx
    exact Generator.noConfusion
  | next =>
    cases g with
    | unseeded => exact absurd rfl hg
    | seeded =>
      cases hx
      exact Generator.noConfusion
  | permute | current | scramble | rdindex | rdoffset | rdstatus =>
    have hkept : g' = g := exec_pureRead_gen rfl hx
    rwa [hkept]

end Sys2Proof.Machine
end

section
/-! The statements of spec/60_exceptions.md. -/

namespace Sys2Proof.Machine

/-- Settles O30: a reserved OP is rejected by the decoder, and a rejected word writes nothing. -/
theorem illegalCommandChangesNothing : Obligations.IllegalCommandChangesNothing := by
  intro w s h
  rw [← toNat_commandOp] at h
  have hd := decode_eq_error_iff.mpr ⟨h, rfl⟩
  exact (executeWord_reserved_effect hd s.params s.gen).eq_next_of_gen_kept rfl

/-- Settles O31: either the command needs SEEDED and the core is unseeded, or the command answers OK. -/
theorem notSeededExactlyWhenARegisterIsNeeded :
    Obligations.NotSeededExactlyWhenARegisterIsNeeded := by
  intro i s
  simp only [← needsSeeded_iff]
  by_cases hraise : s.gen = .unseeded ∧ needsSeeded i = true
  · obtain ⟨hg, hn⟩ := hraise
    exact ⟨.unseeded, .notSeeded, 0#32, exec_needsSeeded_effect hn s.params s rfl hg, nofun,
      fun _ => ⟨rfl, hg.symm⟩, absurd hg, iff_of_true rfl ⟨hg, hn⟩⟩
  · obtain ⟨g', ⟨st, r⟩, hi⟩ := exec_effect i s.params s.gen
    obtain rfl : st = .ok := exec_effect_ok hi fun hn hg => hraise ⟨hg, hn⟩
    exact ⟨g', .ok, r, hi s rfl rfl, nofun, nofun, exec_effect_keeps_seeded hi,
      iff_of_false nofun hraise⟩

/-- Settles O33: either error keeps the generator, so the later words run from the state before it. -/
theorem anErrorLeavesNoTrace : Obligations.AnErrorLeavesNoTrace := by
  refine fun s w q => ⟨fun ⟨e, hd⟩ => ?_, fun hg ⟨i, hd, hn⟩ => ?_⟩
  · exact answers_cons (executeWord_reserved_effect hd s.params s.gen) q
  · have hw := executeWord_effect_of_command hd (exec_needsSeeded_effect hn s.params)
    rw [← hg] at hw
    exact answers_cons hw q

end Sys2Proof.Machine
end

section
/-! What a move of the core, a move of the host and a step can do, and what each keeps of the reset
state, of the invariant and of SEEDED (spec/70_reset_and_hazards.md R180 to R183). -/

namespace Sys2Proof.Machine

/-- The core's move: held in reset or idle it changes nothing, and otherwise the oldest accepted word
leaves the port and has its effect. -/
theorem coreMove_cases {s t : State} (h : coreMove s = .next t) :
    ((s.resetLine = true ∨ s.accepted = []) ∧ t = s) ∨
      ∃ w rest g x, s.resetLine = false ∧ s.accepted = w :: rest
        ∧ Effect (executeWord w) s.params s.gen g x
        ∧ t = { s with gen := g, accepted := rest, responses := s.responses ++ [x] } := by
  cases hl : s.resetLine with
  | true =>
    cases (coreMove_in_reset hl).symm.trans h
    exact .inl ⟨.inl rfl, rfl⟩
  | false =>
    cases ha : s.accepted with
    | nil =>
      cases (coreMove_idle ha).symm.trans h
      exact .inl ⟨.inr rfl, rfl⟩
    | cons w rest =>
      obtain ⟨g, x, hw⟩ := executeWord_effect w s.params s.gen
      cases ((coreMove_command hl ha).trans (hw _ rfl rfl)).symm.trans h
      exact .inr ⟨w, rest, g, x, rfl, rfl, hw, by rw [← hl]⟩

/-- One step uses up its turn and is a move of the core or the host's move that was scheduled. -/
theorem step_cases {s t : State} (h : step s = .next t) :
    ((s.turns = [] ∨ ∃ ts, s.turns = .core :: ts)
        ∧ coreMove { s with turns := s.turns.tail } = .next t) ∨
      ∃ m ts, s.turns = .host m :: ts ∧ t = hostMove m { s with turns := ts } := by
  cases ht : s.turns with
  | nil => exact .inl ⟨.inl rfl, ht ▸ (step_of_core_turn (.inl ht)).symm.trans h⟩
  | cons turn ts =>
    cases turn with
    | core => exact .inl ⟨.inr ⟨ts, rfl⟩, (nextMove_core ht).symm.trans h⟩
    | host m =>
      cases (nextMove_host ht).symm.trans h
      exact .inr ⟨m, ts, rfl, rfl⟩

/-- While reset is asserted no word is accepted (R180; notes/assumptions/6). -/
theorem acceptCommand_in_reset {s : State} (hl : s.resetLine = true) (w : CommandWord) :
    acceptCommand w s = s := by
  simp [acceptCommand, hl]

/-- In the reset state no move of the host but the release changes anything (R180). -/
theorem hostMove_in_reset {m : HostMove} {s : State} (hl : s.resetLine = true)
    (hg : s.gen = .unseeded) (ha : s.accepted = []) (hr : s.responses = [])
    (hm : m ≠ .reset false) : hostMove m s = s := by
  cases m with
  | present w => exact acceptCommand_in_reset hl w
  | take =>
    cases s
    cases hr
    rfl
  | reset asserted =>
    cases asserted with
    | true =>
      cases s
      cases hl
      cases hg
      cases ha
      cases hr
      rfl
    | false => exact absurd rfl hm

theorem coreMove_keeps_inv {s t : State} (h : coreMove s = .next t) (hs : s.Inv) : t.Inv := by
  obtain ⟨-, rfl⟩ | ⟨w, rest, g, x, hl, -, hw, rfl⟩ := coreMove_cases h
  · exact hs
  · obtain ⟨-, hsound⟩ := hs
    refine ⟨fun hreset => absurd (hl.symm.trans hreset) Bool.false_ne_true, fun y hy => ?_⟩
    obtain hy | hy := List.mem_append.mp hy
    · exact hsound y hy
    · rw [List.mem_singleton.mp hy]
      exact executeWord_effect_sound hw

theorem hostMove_keeps_inv (m : HostMove) {s : State} (hs : s.Inv) : (hostMove m s).Inv := by
  have ⟨hreset, hsound⟩ := hs
  cases m with
  | present w =>
    cases hl : s.resetLine with
    | true =>
      rw [hostMove, acceptCommand_in_reset hl]
      exact hs
    | false =>
      rw [hostMove, acceptCommand_of_released hl]
      exact ⟨fun h => absurd (hl.symm.trans h) Bool.false_ne_true, hsound⟩
  | take =>
    refine ⟨fun h => ?_, fun x hx => hsound x (List.mem_of_mem_tail hx)⟩
    obtain ⟨hg, ha, hr⟩ := hreset h
    exact ⟨hg, ha, congrArg List.tail hr⟩
  | reset asserted =>
    cases asserted with
    | true => exact ⟨fun _ => ⟨rfl, rfl, rfl⟩, fun _ hx => absurd hx List.not_mem_nil⟩
    | false => exact ⟨fun h => absurd h Bool.false_ne_true, hsound⟩

/-- SEEDED after a command: set before it, or set by it (R22, R30). -/
theorem exec_effect_seededFlag {i : Instr} {p : Params} {g g' : Generator} {x : Response}
    (h : Effect (exec i) p g g' x) : seededFlag g' = (seededFlag g || seeds i) := by
  have hx := h ⟨p, g, [], [], false, []⟩ rfl rfl
  cases i with
  | construct | reseed | restore =>
    cases hx
    exact (Bool.or_true _).symm
  | next => cases g <;> cases hx <;> rfl
  | permute | current | scramble | rdindex | rdoffset | rdstatus =>
    have hkept : g' = g := exec_pureRead_gen rfl hx
    rw [hkept]
    exact (Bool.or_false _).symm

/-- No command word clears SEEDED (R22, R181). -/
theorem executeWord_effect_keeps_seeded {w : CommandWord} {p : Params} {g g' : Generator}
    {x : Response} (h : Effect (executeWord w) p g g' x) (hg : g ≠ .unseeded) : g' ≠ .unseeded := by
  cases hd : decode w with
  | ok i =>
    have hi : Effect (exec i) p g g' x :=
      fun s hp hgen => (executeWord_command hd s).symm.trans (h s hp hgen)
    exact exec_effect_keeps_seeded hi hg
  | error e =>
    cases (executeWord_reserved hd _).symm.trans (h ⟨p, g, [], [], false, []⟩ rfl rfl)
    exact hg

theorem coreMove_keeps_seeded {s t : State} (h : coreMove s = .next t) (hg : s.gen ≠ .unseeded) :
    t.gen ≠ .unseeded := by
  obtain ⟨-, rfl⟩ | ⟨w, rest, g, x, -, -, hw, rfl⟩ := coreMove_cases h
  · exact hg
  · exact executeWord_effect_keeps_seeded hw hg

/-- Of the host's moves only the asserting of reset writes the generator (R12, R181). -/
theorem hostMove_gen {m : HostMove} (hm : m ≠ .reset true) (s : State) :
    (hostMove m s).gen = s.gen := by
  cases m with
  | present w => exact acceptCommand_gen w s
  | take => rfl
  | reset asserted =>
    cases asserted with
    | true => exact absurd rfl hm
    | false => rfl

/-- A safe host's first command finds SEEDED set if it needs it, and what follows is safe on the core
that command leaves (R183). -/
theorem bootOrder_cons {b : Bool} {i : Instr} {is : List Instr} :
    bootOrder b (i :: is) = true ↔
      (needsSeeded i = true → b = true) ∧ bootOrder (b || seeds i) is = true := by
  cases b <;> simp [bootOrder]

/-- A safe host's commands are all answered with status OK, on any core they are safe on (R183). -/
theorem answers_of_bootOrder {s : State} {is : List Instr}
    (h : bootOrder (seededFlag s.gen) is = true) :
    ∃ rs, answers s (is.map encode) = some rs ∧ rs.length = is.length ∧ ∀ x ∈ rs, x.st = .ok := by
  induction is generalizing s with
  | nil => exact ⟨[], answers_nil s, rfl, fun _ hx => absurd hx List.not_mem_nil⟩
  | cons i is ih =>
    obtain ⟨hneeds, hlater⟩ := bootOrder_cons.mp h
    obtain ⟨g, x, hi⟩ := exec_effect i s.params s.gen
    rw [← exec_effect_seededFlag hi] at hlater
    obtain ⟨rs, hrs, hlen, hok⟩ := ih (s := { s with gen := g }) hlater
    have hx : x.st = .ok := exec_effect_ok hi fun hn => seededFlag_iff.mp (hneeds hn)
    refine ⟨x :: rs, ?_, congrArg Nat.succ hlen, List.forall_mem_cons.mpr ⟨hx, hok⟩⟩
    rw [List.map_cons, answers_cons (executeWord_effect_of_command (decode_encode i) hi), hrs,
      Option.map_some]

end Sys2Proof.Machine
end

section
/-! The statements of spec/70_reset_and_hazards.md. -/

namespace Sys2Proof.Machine

/-- Settles O43: a move of the core adds at most a sound response, and only with reset released; a
move of the host adds no response and, while reset is asserted, no word (notes/assumptions/6). -/
theorem everyStepKeepsTheInvariant : Obligations.EveryStepKeepsTheInvariant := by
  intro s t hs h
  obtain ⟨-, hcore⟩ | ⟨m, ts, -, rfl⟩ := step_cases h
  · exact coreMove_keeps_inv hcore hs
  · exact hostMove_keeps_inv m hs

/-- Settles O45: no move of the core clears SEEDED, and of the host's moves only the asserting of
reset writes it. -/
theorem onlyResetUnseeds : Obligations.OnlyResetUnseeds := by
  refine ⟨fun s t h hs htGen => ?_, fun s ts ht => ⟨_, nextMove_host ht, rfl⟩⟩
  obtain ⟨-, hcore⟩ | ⟨m, ts, ht, rfl⟩ := step_cases h
  · exact absurd htGen (coreMove_keeps_seeded hcore hs)
  · obtain rfl : m = .reset true := by
      by_contra hm
      exact hs ((hostMove_gen hm { s with turns := ts }).symm.trans htGen)
    exact ⟨ts, ht⟩

/-- Settles O57: by induction on the commands, from the generator each one leaves. -/
theorem seededFirstMeansNoErrors : Obligations.SeededFirstMeansNoErrors :=
  fun _ _ => answers_of_bootOrder

/-- Settles O39: the step is the host's scheduled move, and each of the two is its own record
update. -/
theorem assertedResetDropsEverythingInFlight : Obligations.AssertedResetDropsEverythingInFlight :=
  fun _ _ => ⟨nextMove_host, nextMove_host⟩

/-- Settles O40: the core's move is held, and no host's move but the release changes the reset
state. -/
theorem heldResetKeepsTheResetState : Obligations.HeldResetKeepsTheResetState := by
  intro s t hl hg ha hr hheld h
  obtain ⟨-, hcore⟩ | ⟨m, ts, ht, rfl⟩ := step_cases h
  · cases (coreMove_in_reset (s := { s with turns := s.turns.tail }) hl).symm.trans hcore
    rfl
  · have hm : m ≠ .reset false := by
      rintro rfl
      exact hheld ts ht
    rw [ht]
    exact hostMove_in_reset (s := { s with turns := ts }) hl hg ha hr hm

/-- Settles O42: reset is released and no response waits. -/
theorem invariantHoldsAtReset : Obligations.InvariantHoldsAtReset :=
  ⟨fun h => absurd h Bool.false_ne_true, fun _ hx => absurd hx List.not_mem_nil⟩

end Sys2Proof.Machine
end

section
/-! The words written out in spec/30_encoding.md and spec/95_test_vectors.md. -/

namespace Sys2Proof.Machine

/-- Settles O3: each written-out word is, by evaluation, its fields packed, and the decoder's law for
its OP gives the command; the two rejected words have a reserved OP. -/
theorem writtenOutWordsDecode : Obligations.WrittenOutWordsDecode :=
  ⟨decode_packCommand_permute 0xDEADBEEF#32 0#32,
    decode_packCommand_construct 42#32 127#32,
    decode_packCommand_current 0#32 0#32,
    decode_packCommand_next 0#32 0#32,
    decode_packCommand_reseed 0xFFFFFFFF#32 1#32,
    decode_packCommand_scramble 3#32 0#32,
    decode_packCommand_rdindex 0#32 0#32,
    decode_packCommand_rdoffset 0#32 0#32,
    decode_packCommand_rdstatus 0#32 0#32,
    decode_packCommand_restore 6#32 121#32,
    decode_packCommand_next 0xDEADBEEF#32 0x12345678#32,
    decode_eq_error_iff.mpr ⟨by decide, rfl⟩,
    decode_eq_error_iff.mpr ⟨by decide, rfl⟩⟩

end Sys2Proof.Machine
end
